-- ==== Sys2Proof/Word.lean ====
section
/-! DEFINITION. The word types of the register bus and of caller memory (00_scope.md R12: every register-bus value
is a 32-bit unsigned word, bit 0 the least significant). -/

namespace Sys2Proof

/-- A value of the register bus, an argument word, or a caller-memory address (R12, R50). -/
abbrev Word := BitVec 32

/-- A byte of a message buffer (R62). -/
abbrev Byte := BitVec 8

end Sys2Proof
end

