-- ==== Sys2Proof/Config.lean ====
section
/-! DEFINITION. The parameters of a controller instance (00_scope.md R8 to R11, the masks of 10_state.md R32 to R40), what
the agents outside the block may do at a step (a turn), and the model's free values. -/

namespace Sys2Proof

/-- The parameters: constants of a run (R8). They are plain data, carried by State and never written by a step, so a
statement about every state is a statement about every parameter set (log 3). -/
structure Params where
  /-- `BASE`, the register base address (R8). -/
  base : Word
  /-- `EVT_IRQ`, an opaque line id (R8). -/
  evtIrq : Nat
  /-- `ERR_IRQ`, an opaque line id (R8). -/
  errIrq : Nat
  /-- `INPUT_CLOCK_HZ` (R8). -/
  inputClockHz : Word
  /-- `CFG_ATTACHED` (R8). -/
  cfgAttached : Bool
  /-- `STD_MAX_HZ`, the standard-mode ceiling (R9). -/
  stdMaxHz : Word
  /-- `FAST_MAX_HZ`, the fast-mode ceiling (R9). -/
  fastMaxHz : Word
  /-- `STD_TIME_CONST` (R9). -/
  stdTimeConst : Word
  /-- `FAST_TIME_CONST` (R9). -/
  fastTimeConst : Word
  /-- `CR1_PE`, controller enable (R32). -/
  cr1Pe : Word
  /-- `CR1_START` (R32). -/
  cr1Start : Word
  /-- `CR1_STOP` (R32). -/
  cr1Stop : Word
  /-- `CR2_FREQ`, the clock-rate field (R33). -/
  cr2Freq : Word
  /-- `CR2_ITERREN` (R33). -/
  cr2Iterren : Word
  /-- `CR2_ITEVTEN` (R33). -/
  cr2Itevten : Word
  /-- `CR2_ITBUFEN` (R33). -/
  cr2Itbufen : Word
  /-- `SR1_SB`, start-sent (R36). -/
  sr1Sb : Word
  /-- `SR1_ADDR`, address-matched (R36). -/
  sr1Addr : Word
  /-- `SR1_BTF`, byte-transfer-finished (R36). -/
  sr1Btf : Word
  /-- `SR1_RXNE`, receive-not-empty (R36). -/
  sr1Rxne : Word
  /-- `SR1_TXE`, transmit-empty (R36). -/
  sr1Txe : Word
  /-- `SR1_BERR`, bus-error (R36). -/
  sr1Berr : Word
  /-- `SR1_ARLO`, arbitration-lost (R36). -/
  sr1Arlo : Word
  /-- `SR1_AF`, ack-failure (R36). -/
  sr1Af : Word
  /-- `SR1_OVR`, overrun (R36). -/
  sr1Ovr : Word
  /-- `SR1_PECERR`, PEC-error (R36). -/
  sr1Pecerr : Word
  /-- `SR1_TIMEOUT`, the hardware's own timeout bit (R36). -/
  sr1Timeout : Word
  /-- `CCR_CCR`, the divider field (R38). -/
  ccrField : Word
  /-- `CCR_FS`, the speed-grade bit (R38). -/
  ccrFs : Word
  /-- `CCR_DUTY`, the duty-cycle bit (R38). -/
  ccrDuty : Word
  /-- The rise-time field of TRISE (R39). -/
  triseField : Word
  /-- `NREQ`, the number of requester ports (R11). -/
  nreq : Nat
  /-- `TXE_POLL_LIMIT`; none is `INF` (R11). -/
  txePollLimit : Option Nat
  /-- `REJECT_TOUCHES_CR1` (R11). -/
  rejectTouchesCr1 : Bool
  /-- `USE_DUTY`, hardwired false (R11, R136). -/
  useDuty : Bool
  /-- `CR2_INIT(INPUT_CLOCK_HZ)`: the function's one value the block ever uses (R11, R113; log 3). -/
  cr2InitWord : Word
deriving DecidableEq, Repr

/-- The default value of `CR2_INIT`: the clock in whole MHz (R11, R113). -/
def cr2InitDefault (clk : Word) : Word := clk / 1000000

/-- The default parameters. The ceilings, time constants and masks are the spec's defaults (R9, R32 to R39, marked general
knowledge there: PRESUMED); the clock, base address and line ids are the values of the spec's examples or free ids
(DESIGN CHOICE, log 4). -/
def Params.default : Params where
  base := 0x40005400
  evtIrq := 0
  errIrq := 1
  inputClockHz := 42000000
  cfgAttached := true
  stdMaxHz := 100000
  fastMaxHz := 400000
  stdTimeConst := 1000000
  fastTimeConst := 3333333
  cr1Pe := 0x00000001
  cr1Start := 0x00000100
  cr1Stop := 0x00000200
  cr2Freq := 0x0000003F
  cr2Iterren := 0x00000100
  cr2Itevten := 0x00000200
  cr2Itbufen := 0x00000400
  sr1Sb := 0x0001
  sr1Addr := 0x0002
  sr1Btf := 0x0004
  sr1Rxne := 0x0040
  sr1Txe := 0x0080
  sr1Berr := 0x0100
  sr1Arlo := 0x0200
  sr1Af := 0x0400
  sr1Ovr := 0x0800
  sr1Pecerr := 0x1000
  sr1Timeout := 0x4000
  ccrField := 0x00000FFF
  ccrFs := 0x00008000
  ccrDuty := 0x00004000
  triseField := 0x0000003F
  nreq := 2
  txePollLimit := none
  rejectTouchesCr1 := false
  useDuty := false
  cr2InitWord := cr2InitDefault 42000000

/-- What one agent may do at a step (R16, R19). A move that is not enabled changes nothing (log 2). -/
inductive Move where
  /-- Requester `r` puts a command on its port and lends the regions (base, size) for the call (R29, R62). -/
  | submit (r : Nat) (code a0 a1 : Word) (regions : List (Nat × Nat))
  /-- Requester `r` collects its status (R29). -/
  | collect (r : Nat)
  /-- The owner of caller memory writes one byte of it (R81). -/
  | callerWrite (a : Word) (b : Byte)
  /-- The dispatcher takes the command of port `r` (R201). -/
  | dispatch (r : Nat)
  /-- Waiting requester `r` takes the lock (R76). -/
  | acquire (r : Nat)
  /-- The sequencer executes its phase; `v` answers the phase's register read, if it makes one (R70). -/
  | sequencer (v : Word)
  /-- The event handler (R240). -/
  | evtHandler
  /-- The error handler (R241). -/
  | errHandler
deriving DecidableEq, Repr, Inhabited

/-- One turn: the move, and the levels of the input pins during it (R44, R204; 92 D1). -/
structure Turn where
  move : Move
  evtLine : Bool
  errLine : Bool
  allocOk : Bool
deriving DecidableEq, Repr, Inhabited

/-- Free value: the turn that follows when State names none. Nothing constrains it (log 1). -/
opaque Config.freeTurn : Nat → Turn

/-- Free value: `DUTY_DIVIDER`, an uninterpreted function (R11, R136). -/
opaque Config.dutyDivider : Word → Word → Word

/-- Free value: a quotient by zero, which no run evaluates (R12, R139; log 16). -/
opaque Config.quotientByZero : Word → Word

end Sys2Proof
end

