-- ==== Sys2Proof/Syntax.lean ====
section
/-! DEFINITION. The instructions (30_encoding.md R103, R104, R114), the registers of the controller (10_state.md R31), the
phases of the sequencer (R22), status codes (R106), and the two formats an instruction is written in (R100). -/

namespace Sys2Proof

/-- The registers of the I2C controller (R31). -/
inductive Reg where
  | cr1 | cr2 | oar1 | oar2 | dr | sr1 | sr2 | ccr | trise
deriving DecidableEq, Repr

/-- The sequencer's phase register (R22). -/
inductive Phase where
  | idle
  | sfRdCr1 | sfDisable | sfWrCcr | sfWrTrise | sfRestore
  | sfrRdCr1 | sfrDisable | sfrRestore
  | opWrCr2 | opRdCr1 | opEnable
  | clRdCr1 | clDisable
  | txFetch | txStart | txStartSt | txAddr | txAddrSt | txAddrClr | txData
  | txRdByte | txWrPoll | txWrByte | txNext | txStop | txDone
deriving DecidableEq, Repr

/-- The result of a command (R106). -/
inductive Status where
  | ok | einval | enomem | ebus | etimedout
deriving DecidableEq, Repr

/-- The rows of R114: the micro-operations on the register bus. -/
inductive MicroRow where
  | start | stop | cr1Disable | cr1Restore | cr1Enable | cr1Read | cr2Init
  | addr | wdata | rdata | status | clraddr | ccrSet | triseSet
deriving DecidableEq, Repr

/-- Format `REGOP`: direction (true is a write), offset, value written or value read (R100, R114). -/
structure RegOp where
  w : Bool
  off : BitVec 8
  val : Word
deriving DecidableEq, Repr

/-- An instruction as it stands on its port: format `CMD` or format `REGOP` (R100). -/
inductive Raw where
  | cmd (code a0 a1 : Word)
  | regop (op : RegOp)
deriving DecidableEq, Repr

/-- The instructions: one constructor per row of spec/opcode_table.json. A command carries both argument words, the
ignored ones too (R102). A micro-operation carries the value of its tuple: the word written, or the word read. -/
inductive Instr where
  /-- OPEN (R203). -/
  | cmdOpen (a0 a1 : Word)
  /-- CLOSE (R209). -/
  | cmdClose (a0 a1 : Word)
  /-- EXECUTE_TRANSFER (R160). -/
  | cmdExecuteTransfer (messages count : Word)
  /-- SET_FREQUENCY (R130). -/
  | cmdSetFrequency (hz a1 : Word)
  /-- Any other command word (R104, R212). -/
  | cmdUnrecognised (code a0 a1 : Word)
  /-- START (R112 (a), R165). -/
  | uopStart
  /-- STOP (R112 (b), R179). -/
  | uopStop
  /-- CR1_DISABLE, the word written (R112 (c)). -/
  | uopCr1Disable (val : Word)
  /-- CR1_RESTORE, the word written (R112 (d)). -/
  | uopCr1Restore (val : Word)
  /-- CR1_ENABLE, the word written (R112 (e)). -/
  | uopCr1Enable (val : Word)
  /-- CR1_READ, the word read. -/
  | uopCr1Read (val : Word)
  /-- CR2_INIT, the word written (R113). -/
  | uopCr2Init (val : Word)
  /-- ADDR: target address and direction, 1 for read (R108). -/
  | uopAddr (addr : BitVec 7) (rd : BitVec 1)
  /-- WDATA: the payload byte (R109). -/
  | uopWdata (b : Byte)
  /-- RDATA: the word read, of which bits [7:0] are kept (R109). -/
  | uopRdata (val : Word)
  /-- STATUS: the SR1 word read (R166, R168, R172). -/
  | uopStatus (val : Word)
  /-- CLRADDR: the SR2 word read and discarded (R169). -/
  | uopClraddr (val : Word)
  /-- CCR_SET, the word written (R110). -/
  | uopCcrSet (val : Word)
  /-- TRISE_SET, the word written (R111). -/
  | uopTriseSet (val : Word)
deriving DecidableEq, Repr

end Sys2Proof
end

