-- ==== Sys2Proof/WellFormed.lean ====
section
/-! DEFINITION. Which instructions a word of the encoding stands for: the checks the fixed bits of a row put on its operands
(30_encoding.md R103, R104, R114). -/

namespace Sys2Proof

/-- The four command codes (R103). -/
def isCommandCode (code : Word) : Bool := code == 1 || code == 2 || code == 3 || code == 4

/-- The instruction has an encoding under the masks of `p`: an unrecognised command is none of the four codes (R104); the
word CR1_DISABLE writes has `CR1_PE` clear and the one CR1_ENABLE writes has it set (R112, R114). -/
def Instr.wellFormed (p : Params) : Instr → Bool
  | .cmdOpen _ _ => true
  | .cmdClose _ _ => true
  | .cmdExecuteTransfer _ _ => true
  | .cmdSetFrequency _ _ => true
  | .cmdUnrecognised code _ _ => !isCommandCode code
  | .uopStart => true
  | .uopStop => true
  | .uopCr1Disable v => v &&& p.cr1Pe == 0
  | .uopCr1Restore _ => true
  | .uopCr1Enable v => v &&& p.cr1Pe == p.cr1Pe
  | .uopCr1Read _ => true
  | .uopCr2Init _ => true
  | .uopAddr _ _ => true
  | .uopWdata _ => true
  | .uopRdata _ => true
  | .uopStatus _ => true
  | .uopClraddr _ => true
  | .uopCcrSet _ => true
  | .uopTriseSet _ => true

/-- The row of R114 a micro-operation belongs to; none for a command. -/
def Instr.row : Instr → Option MicroRow
  | .cmdOpen _ _ => none
  | .cmdClose _ _ => none
  | .cmdExecuteTransfer _ _ => none
  | .cmdSetFrequency _ _ => none
  | .cmdUnrecognised _ _ _ => none
  | .uopStart => some .start
  | .uopStop => some .stop
  | .uopCr1Disable _ => some .cr1Disable
  | .uopCr1Restore _ => some .cr1Restore
  | .uopCr1Enable _ => some .cr1Enable
  | .uopCr1Read _ => some .cr1Read
  | .uopCr2Init _ => some .cr2Init
  | .uopAddr _ _ => some .addr
  | .uopWdata _ => some .wdata
  | .uopRdata _ => some .rdata
  | .uopStatus _ => some .status
  | .uopClraddr _ => some .clraddr
  | .uopCcrSet _ => some .ccrSet
  | .uopTriseSet _ => some .triseSet

end Sys2Proof
end

