-- ==== Sys2Proof/Decode.lean ====
section
/-! DEFINITION. The decoder, the encoder and the words they share (30_encoding.md R100 to R114). Format `CMD` is three
32-bit words; format `REGOP` is the 41-bit tuple direction, offset, value, value in the low bits. A tuple alone does not
always say its row (the CR1 writes, the DR writes): decoding takes the issuing phase as context, or reads the tuple as
a bus monitor does (log 13). -/

namespace Sys2Proof

/-- Why a decoding is rejected. -/
inductive DecodeError where
  /-- Neither 12 bytes (CMD) nor 6 bytes (REGOP). -/
  | badLength
  /-- A bit above the 41 of a REGOP tuple is set. -/
  | badPadding
  /-- No row of R114 has this direction and offset, or the issuing phase's row does not. -/
  | noSuchAccess
  /-- The value has not the fixed bits of the row. -/
  | badValue
  /-- The phase given as context issues no micro-operation. -/
  | silentPhase
deriving DecidableEq, Repr

/-- The offset of a register from `BASE` (10_state.md R31). -/
def regOffset : Reg → BitVec 8
  | .cr1 => 0x00
  | .cr2 => 0x04
  | .oar1 => 0x08
  | .oar2 => 0x0C
  | .dr => 0x10
  | .sr1 => 0x14
  | .sr2 => 0x18
  | .ccr => 0x1C
  | .trise => 0x20

/-- The CR1 word of a start: start and enable, all other bits 0 (R112 (a)). -/
def startWord (p : Params) : Word := p.cr1Start ||| p.cr1Pe

/-- The CR1 word of a stop: stop and enable, all other bits 0 (R112 (b)). -/
def stopWord (p : Params) : Word := p.cr1Stop ||| p.cr1Pe

/-- The DR word of an address phase (R108). -/
def addressWord (addr : BitVec 7) (rd : BitVec 1) : Word := (addr ++ rd).zeroExtend 32

/-- The DR word of a payload byte (R109). -/
def dataWord (b : Byte) : Word := b.zeroExtend 32

/-- The direction and register of a row (R114). -/
def rowAccess : MicroRow → Bool × Reg
  | .start => (true, .cr1)
  | .stop => (true, .cr1)
  | .cr1Disable => (true, .cr1)
  | .cr1Restore => (true, .cr1)
  | .cr1Enable => (true, .cr1)
  | .cr1Read => (false, .cr1)
  | .cr2Init => (true, .cr2)
  | .addr => (true, .dr)
  | .wdata => (true, .dr)
  | .rdata => (false, .dr)
  | .status => (false, .sr1)
  | .clraddr => (false, .sr2)
  | .ccrSet => (true, .ccr)
  | .triseSet => (true, .trise)

/-- The row a phase issues, the last column of R114; none for a phase without a bus access. -/
def phaseRow : Phase → Option MicroRow
  | .idle => none
  | .sfRdCr1 => some .cr1Read
  | .sfDisable => some .cr1Disable
  | .sfWrCcr => some .ccrSet
  | .sfWrTrise => some .triseSet
  | .sfRestore => some .cr1Restore
  | .sfrRdCr1 => some .cr1Read
  | .sfrDisable => some .cr1Disable
  | .sfrRestore => some .cr1Restore
  | .opWrCr2 => some .cr2Init
  | .opRdCr1 => some .cr1Read
  | .opEnable => some .cr1Enable
  | .clRdCr1 => some .cr1Read
  | .clDisable => some .cr1Disable
  | .txFetch => none
  | .txStart => some .start
  | .txStartSt => some .status
  | .txAddr => some .addr
  | .txAddrSt => some .status
  | .txAddrClr => some .clraddr
  | .txData => none
  | .txRdByte => some .rdata
  | .txWrPoll => some .status
  | .txWrByte => some .wdata
  | .txNext => none
  | .txStop => some .stop
  | .txDone => none

/-! ### Decoding -/

/-- A command: the whole code word is compared, every other code is unrecognised (R101 to R104). -/
def decodeCommand (code a0 a1 : Word) : Instr :=
  if code = 1 then .cmdOpen a0 a1
  else if code = 2 then .cmdClose a0 a1
  else if code = 3 then .cmdExecuteTransfer a0 a1
  else if code = 4 then .cmdSetFrequency a0 a1
  else .cmdUnrecognised code a0 a1

/-- The value field read as the given row has it (R108 to R114). -/
def decodeRowValue (p : Params) (row : MicroRow) (v : Word) : Except DecodeError Instr :=
  match row with
  | .start => if v = startWord p then .ok .uopStart else .error .badValue
  | .stop => if v = stopWord p then .ok .uopStop else .error .badValue
  | .cr1Disable => if v &&& p.cr1Pe = 0 then .ok (.uopCr1Disable v) else .error .badValue
  | .cr1Restore => .ok (.uopCr1Restore v)
  | .cr1Enable => if v &&& p.cr1Pe = p.cr1Pe then .ok (.uopCr1Enable v) else .error .badValue
  | .cr1Read => .ok (.uopCr1Read v)
  | .cr2Init => .ok (.uopCr2Init v)
  | .addr =>
    if v.extractLsb' 8 24 = 0 then .ok (.uopAddr (v.extractLsb' 1 7) (v.extractLsb' 0 1)) else .error .badValue
  | .wdata => if v.extractLsb' 8 24 = 0 then .ok (.uopWdata (v.extractLsb' 0 8)) else .error .badValue
  | .rdata => .ok (.uopRdata v)
  | .status => .ok (.uopStatus v)
  | .clraddr => .ok (.uopClraddr v)
  | .ccrSet => .ok (.uopCcrSet v)
  | .triseSet => .ok (.uopTriseSet v)

/-- The row a bus monitor names from direction, offset and, for CR1 writes, the value (R114). A CR1 write that is
neither the start nor the stop word is read as CR1_DISABLE or CR1_ENABLE by its enable bit, and a DR write as the
address byte (DESIGN CHOICE, log 13). -/
def monitorRow (p : Params) (op : RegOp) : Option MicroRow :=
  if op.w then
    if op.off = regOffset .cr1 then
      if op.val = startWord p then some .start
      else if op.val = stopWord p then some .stop
      else if op.val &&& p.cr1Pe = 0 then some .cr1Disable
      else some .cr1Enable
    else if op.off = regOffset .cr2 then some .cr2Init
    else if op.off = regOffset .dr then some .addr
    else if op.off = regOffset .ccr then some .ccrSet
    else if op.off = regOffset .trise then some .triseSet
    else none
  else if op.off = regOffset .cr1 then some .cr1Read
  else if op.off = regOffset .dr then some .rdata
  else if op.off = regOffset .sr1 then some .status
  else if op.off = regOffset .sr2 then some .clraddr
  else none

/-- A micro-operation: with a phase as context, the row that phase issues; without, the monitor's reading (R114). -/
def decodeRegOp (p : Params) (ctx : Option Phase) (op : RegOp) : Except DecodeError Instr :=
  match ctx with
  | none =>
    match monitorRow p op with
    | none => .error .noSuchAccess
    | some row => decodeRowValue p row op.val
  | some ph =>
    match phaseRow ph with
    | none => .error .silentPhase
    | some row =>
      if op.w = (rowAccess row).1 ∧ op.off = regOffset (rowAccess row).2 then decodeRowValue p row op.val
      else .error .noSuchAccess

/-- Little-endian bytes of a number, the lowest first. -/
def leBytes : Nat → Nat → List Byte
  | 0, _ => []
  | n + 1, v => BitVec.ofNat 8 v :: leBytes n (v / 256)

/-- The number of little-endian bytes. -/
def leNat : List Byte → Nat
  | [] => 0
  | b :: bs => b.toNat + 256 * leNat bs

/-- The format a byte sequence is in: 12 bytes are a `CMD`, 6 bytes a `REGOP` (R100, R115; the byte layout: log 14). -/
def rawOfBytes (bs : List Byte) : Except DecodeError Raw :=
  if bs.length = 12 then
    .ok (.cmd (BitVec.ofNat 32 (leNat (bs.take 4))) (BitVec.ofNat 32 (leNat ((bs.drop 4).take 4)))
      (BitVec.ofNat 32 (leNat (bs.drop 8))))
  else if bs.length = 6 then
    if leNat bs < 2 ^ 41 then
      .ok (.regop
        { w := decide (2 ^ 40 ≤ leNat bs)
          off := BitVec.ofNat 8 (leNat bs / 2 ^ 32)
          val := BitVec.ofNat 32 (leNat bs) })
    else .error .badPadding
  else .error .badLength

/-- Decoding of an instruction as it stands on its port (R100). -/
def decodeRaw (p : Params) (ctx : Option Phase) (raw : Raw) : Except DecodeError Instr :=
  match raw with
  | .cmd code a0 a1 => .ok (decodeCommand code a0 a1)
  | .regop op => decodeRegOp p ctx op

/-- Decoding of any bytes. -/
def decode (p : Params) (ctx : Option Phase) (bs : List Byte) : Except DecodeError Instr :=
  match rawOfBytes bs with
  | .error e => .error e
  | .ok raw => decodeRaw p ctx raw

/-- The bytes of an instruction whose bits are `w`, numbered as the opcode table numbers them: a row of at most 32 bits is
a command word with zero argument words, one of up to 48 a `REGOP` tuple, a longer one a command with its argument
words. -/
def tableBytes (nbits w : Nat) : List Byte := if 32 < nbits ∧ nbits ≤ 48 then leBytes 6 w else leBytes 12 w

/-- The instruction the decoder reads from those bytes, under the masks of `p` and with no phase as context. -/
def decodeTableWordWith (p : Params) (nbits w : Nat) : Option Instr :=
  match decode p none (tableBytes nbits w) with
  | .ok i => some i
  | .error _ => none

/-- The same under the default masks, in which the opcode table is written. -/
def decodeTableWord (nbits w : Nat) : Option Instr := decodeTableWordWith Params.default nbits w

/-! ### Encoding -/

/-- A tuple of the given row. -/
def rowOp (row : MicroRow) (v : Word) : RegOp :=
  { w := (rowAccess row).1, off := regOffset (rowAccess row).2, val := v }

/-- The words of an instruction (R100 to R114). -/
def encode (p : Params) : Instr → Raw
  | .cmdOpen a0 a1 => .cmd 1 a0 a1
  | .cmdClose a0 a1 => .cmd 2 a0 a1
  | .cmdExecuteTransfer messages count => .cmd 3 messages count
  | .cmdSetFrequency hz a1 => .cmd 4 hz a1
  | .cmdUnrecognised code a0 a1 => .cmd code a0 a1
  | .uopStart => .regop (rowOp .start (startWord p))
  | .uopStop => .regop (rowOp .stop (stopWord p))
  | .uopCr1Disable v => .regop (rowOp .cr1Disable v)
  | .uopCr1Restore v => .regop (rowOp .cr1Restore v)
  | .uopCr1Enable v => .regop (rowOp .cr1Enable v)
  | .uopCr1Read v => .regop (rowOp .cr1Read v)
  | .uopCr2Init v => .regop (rowOp .cr2Init v)
  | .uopAddr addr rd => .regop (rowOp .addr (addressWord addr rd))
  | .uopWdata b => .regop (rowOp .wdata (dataWord b))
  | .uopRdata v => .regop (rowOp .rdata v)
  | .uopStatus v => .regop (rowOp .status v)
  | .uopClraddr v => .regop (rowOp .clraddr v)
  | .uopCcrSet v => .regop (rowOp .ccrSet v)
  | .uopTriseSet v => .regop (rowOp .triseSet v)

/-- The number a `REGOP` tuple is, read left to right: direction, offset, value (R114). -/
def RegOp.toNat (op : RegOp) : Nat :=
  (if op.w then 2 ^ 40 else 0) + op.off.toNat * 2 ^ 32 + op.val.toNat

/-- The bytes of an instruction's words (log 14). -/
def Raw.toBytes : Raw → List Byte
  | .cmd code a0 a1 => leBytes 4 code.toNat ++ leBytes 4 a0.toNat ++ leBytes 4 a1.toNat
  | .regop op => leBytes 6 op.toNat

/-! ### The status word and the message descriptor -/

/-- The status word (R106): bits [31:3] are 0 (R105). -/
def Status.toWord : Status → Word
  | .ok => 0
  | .einval => 1
  | .enomem => 2
  | .ebus => 3
  | .etimedout => 4

/-- The attributes of a message (10_state.md R45), as the descriptor holds them (R107). -/
structure Descriptor where
  addr : BitVec 7
  rd : BitVec 1
  len : Word
  buf : Word
deriving DecidableEq, Repr

/-- A descriptor from its three words; the reserved bits of word 0 are ignored (R105, R107). -/
def Descriptor.ofWords (w0 w1 w2 : Word) : Descriptor :=
  { addr := w0.extractLsb' 0 7, rd := w0.extractLsb' 16 1, len := w1, buf := w2 }

/-- Word 0 of a descriptor with its reserved bits 0 (R107). -/
def Descriptor.word0 (d : Descriptor) : Word :=
  d.addr.zeroExtend 32 ||| (d.rd.zeroExtend 32 <<< 16)

/-- The 12 bytes of a descriptor, three little-endian words (R63, R107). -/
def Descriptor.toBytes (d : Descriptor) : List Byte :=
  leBytes 4 d.word0.toNat ++ leBytes 4 d.len.toNat ++ leBytes 4 d.buf.toNat

end Sys2Proof
end

