-- ==== Sys2Proof/Machine/State.lean ====
section
/-! DEFINITION. The state of one controller instance's block (10_state.md R20 to R30), the caller memory and the inputs its
steps read, and the state at reset (70_reset_and_hazards.md R270). Plain data throughout. -/

namespace Sys2Proof.Machine

/-- The faults of 60_exceptions.md R245. The step that raises one marks the state; every later step answers it. All are
safe: nothing can be proved of a run after the fault (R245, "all err toward unprovable"). -/
inductive Fault where
  /-- CLOSE while a command holds or awaits the lock (R209, R211). Safe. -/
  | closeWhileBusy
  /-- An interrupt handler runs while the device is closed (R240, R241). Safe. -/
  | irqWhileClosed
  /-- SET_FREQUENCY of 0 Hz (R139). Safe. -/
  | setFreqZeroHz
  /-- A descriptor or buffer access outside what the caller declared, or a misaligned descriptor pointer (R163, R171,
  R174). Safe. -/
  | callerMemRefused
  /-- A parameter constraint is broken: no step at all, nothing is marked (R246). Safe. -/
  | badParameters
deriving DecidableEq, Repr

/-- Why an instruction is not run. -/
inductive Refusal where
  /-- The instruction has no meaning in this model; raised only by an arm of exec. Safe. -/
  | notModelled (mnemonic : String)
  /-- The instruction is not the one its port shows: the command is not on the dispatcher's port, or the micro-operation
  (with this value) is not the one the sequencer's phase issues (R114, R201). Raised by exec given an instruction the
  machine did not fetch; never by step. Safe (log 12). -/
  | notIssued
  /-- The tuple the sequencer issues does not decode; never raised. Safe (log 12). -/
  | notDecoded
  /-- The registry holds instances whose register ranges overlap: no run exists (R256, 93_implementation_defined.md U27).
  Raised only by Registry.step. Safe (log 24). -/
  | overlappingInstances
deriving DecidableEq, Repr

/-- The device state (R24). -/
inductive Dev where
  | closed | opened
deriving DecidableEq, Repr

/-- The adapter lock (R25). -/
inductive Lock where
  | free
  | held (r : Nat)
deriving DecidableEq, Repr

/-- Where the set-frequency phases return to, `x[RET]` (R21). -/
inductive Ret where
  | ioctl | opening
deriving DecidableEq, Repr

/-- A request slot (R29). -/
inductive Slot where
  | idle
  | submitted (code a0 a1 : Word)
  | waitLock (code a0 a1 : Word)
  | running
  | done (status : Status)
deriving DecidableEq, Repr

/-- The two interrupt lines (R244). -/
inductive Line where
  | evt | err
deriving DecidableEq, Repr

/-- The events of the history (R30). -/
inductive Event where
  | regRead (off : BitVec 8) (v : Word)
  | regWrite (off : BitVec 8) (v : Word)
  | cMemRead (addr : Word) (n : Nat) (v : Word)
  | cMemWrite (addr : Word) (n : Nat) (v : Word)
  | dispatch (r : Nat) (cmd : Word)
  | lockAcq (r : Nat)
  | lockRel (r : Nat)
  | maskSet
  | maskRestore (b : Bool)
  | post (line : Line)
  | lineDisable (line : Line)
  | complete (r : Nat) (status : Status)
  | fault (f : Fault)
deriving DecidableEq, Repr

/-- The working registers of the sequencer (R21). -/
structure Regs where
  /-- `OWNER`: the requester whose command runs. -/
  owner : Nat
  /-- `OP`: the code of the running command. -/
  op : Word
  /-- `RET`. -/
  ret : Ret
  /-- `HZ`: the requested bus frequency. -/
  hz : Word
  /-- `FAST`: the fast grade is selected. -/
  fast : Bool
  /-- `DIV`: the clock-divider value. -/
  div : Word
  /-- `TR`: the rise-time value. -/
  tr : Word
  /-- `OLD`: the CR1 value read before disabling. -/
  old : Word
  /-- `TMP`: the CR1 value for read-modify-write. -/
  tmp : Word
  /-- `MSGS`: the address of the first descriptor. -/
  msgs : Word
  /-- `CNT`: the number of messages. -/
  cnt : Word
  /-- `MI`: the index of the current message. -/
  mi : Word
  /-- `BI`: the index of the current byte. -/
  bi : Word
  /-- `ADDR`: the target address. -/
  addr : BitVec 7
  /-- `RD`: 1 for a read message. -/
  rd : BitVec 1
  /-- `LEN`: the length of the current message in bytes. -/
  len : Word
  /-- `BUF`: the address of the current buffer. -/
  buf : Word
  /-- `SR`: the last SR1 value read. -/
  sr : Word
  /-- `ERR`: the first error of the running transfer. -/
  err : Status
  /-- `POLLS`: status reads made while waiting for the current byte. -/
  polls : Nat
  /-- `IRQ_SAVED`: `irq_mask` before the write loop. -/
  irqSaved : Bool
deriving DecidableEq, Repr

/-- A region of caller memory lent for the running call of one requester (20_memory.md R62; log 8). -/
structure Grant where
  owner : Nat
  base : Nat
  size : Nat
deriving DecidableEq, Repr

/-- Caller memory (R50, R62): address and byte pairs, addresses rising, no byte 0 listed (log 7). -/
abbrev Memory := List Host.Cell

structure State where
  /-- The parameters, constants of the run (R8 to R11; log 3). -/
  cfg : Params
  /-- The working registers (R21). -/
  x : Regs
  /-- The phase; with `x[MI]` and `x[BI]` the position `pc` (R22). -/
  phase : Phase
  /-- `dev` (R24). -/
  dev : Dev
  /-- `lock` (R25). -/
  lock : Lock
  /-- `sig`, the counting signal (R26). -/
  sig : Word
  /-- `evt_en` (R27). -/
  evtEn : Bool
  /-- `err_en` (R27). -/
  errEn : Bool
  /-- `irq_mask` (R27). -/
  irqMask : Bool
  /-- `fault` (R28). -/
  fault : Option Fault
  /-- `err_sr1` (R28). -/
  errSr1 : Word
  /-- `req[r]` for r in 0..NREQ-1 (R29). -/
  req : List Slot
  /-- The event history, oldest first (R30). -/
  history : List Event
  /-- Caller memory (R50, R62). -/
  cmem : Memory
  /-- The regions of caller memory lent for the calls outstanding (R62; log 8). -/
  lent : List Grant
  /-- Input `evt_line` (R44). -/
  evtLine : Bool
  /-- Input `err_line` (R44). -/
  errLine : Bool
  /-- Input `alloc_ok` (R204). -/
  allocOk : Bool
  /-- The model's own: the port the dispatcher is serving (log 1). -/
  port : Nat
  /-- The model's own: the turns to come, the next first (log 1). -/
  turns : List Turn
  /-- The model's own: the count of steps, to which the free turn is applied (log 1). -/
  tick : Nat
deriving DecidableEq, Repr

/-- The working registers at reset: unspecified by R270, zero here (DESIGN CHOICE, log 5). -/
def Regs.reset : Regs where
  owner := 0
  op := 0
  ret := .ioctl
  hz := 0
  fast := false
  div := 0
  tr := 0
  old := 0
  tmp := 0
  msgs := 0
  cnt := 0
  mi := 0
  bi := 0
  addr := 0
  rd := 0
  len := 0
  buf := 0
  sr := 0
  err := .ok
  polls := 0
  irqSaved := false

/-- The block after reset under the parameters `p` (R270). -/
def State.resetWith (p : Params) : State where
  cfg := p
  x := Regs.reset
  phase := .idle
  dev := .closed
  lock := .free
  sig := 0
  evtEn := true
  errEn := true
  irqMask := false
  fault := none
  errSr1 := 0
  req := List.replicate p.nreq .idle
  history := []
  cmem := []
  lent := []
  evtLine := false
  errLine := false
  allocOk := true
  port := 0
  turns := []
  tick := 0

/-- The block after reset (R270), with the default parameters (log 4). -/
def State.reset : State := State.resetWith Params.default

end Sys2Proof.Machine
end

