-- ==== Sys2Proof/Machine/Flags.lean ====
section
/-! DEFINITION. The conditions the block tests (10_state.md R48; it has no flags register), and the check of the parameter
constraints (00_scope.md R9, R10, 60_exceptions.md R246). -/

namespace Sys2Proof.Machine

/-- `ERRMASK`: the OR of the six error masks (R40). -/
def errMask (p : Params) : Word :=
  p.sr1Timeout ||| p.sr1Af ||| p.sr1Pecerr ||| p.sr1Ovr ||| p.sr1Arlo ||| p.sr1Berr

/-- An error bit of an SR1 value is set (R166, R168). -/
def hasError (p : Params) (sr : Word) : Bool := sr &&& errMask p != 0

/-- Transmit-empty is set (R172). -/
def txeSet (p : Params) (sr : Word) : Bool := sr &&& p.sr1Txe != 0

/-- The bound on the transmit-empty wait is reached; never with `INF` (R172, R173). -/
def pollLimitReached (p : Params) (polls : Nat) : Bool :=
  match p.txePollLimit with
  | none => false
  | some n => n ≤ polls

/-- `hz` exceeds the fast-mode ceiling (R132). -/
def overCeiling (p : Params) (hz : Word) : Bool := p.fastMaxHz.ult hz

/-- The fast grade: above the standard-mode ceiling (R133). -/
def isFast (p : Params) (hz : Word) : Bool := p.stdMaxHz.ult hz

/-- Another byte of the message is to come (R171, R174). -/
def moreBytes (x : Regs) : Bool := x.bi.ult x.len

/-- Another message of the sequence is to come (R177). -/
def moreMessages (x : Regs) : Bool := (x.mi + 1).ult x.cnt

/-- The slot awaits the lock (R29). -/
def Slot.isWaiting : Slot → Bool
  | .waitLock _ _ _ => true
  | .idle => false
  | .submitted _ _ _ => false
  | .running => false
  | .done _ => false

/-- A requester awaits the lock (R209, R211). -/
def anyWaiting (s : State) : Bool := s.req.any Slot.isWaiting

/-! ### The parameter constraints -/

/-- Exactly one bit is set (R10). -/
def oneBit (m : Word) : Bool := m != 0 && m &&& (m - 1) == 0

/-- The set bits are contiguous and there is one (R10). -/
def contiguous (m : Word) : Bool := m != 0 && m &&& (m + (m &&& (0 - m))) == 0

/-- No two masks of a register overlap (R10, R246). -/
def disjointMasks : List Word → Bool
  | [] => true
  | m :: ms => ms.all (fun n => m &&& n == 0) && disjointMasks ms

def cr1Masks (p : Params) : List Word := [p.cr1Pe, p.cr1Start, p.cr1Stop]

def cr2Bits (p : Params) : List Word := [p.cr2Iterren, p.cr2Itevten, p.cr2Itbufen]

def sr1Masks (p : Params) : List Word :=
  [p.sr1Sb, p.sr1Addr, p.sr1Btf, p.sr1Rxne, p.sr1Txe, p.sr1Berr, p.sr1Arlo, p.sr1Af, p.sr1Ovr, p.sr1Pecerr,
    p.sr1Timeout]

def ccrBits (p : Params) : List Word := [p.ccrFs, p.ccrDuty]

/-- The masks are well formed (R10): single bits, contiguous fields, disjoint within a register. -/
def masksOk (p : Params) : Bool :=
  (cr1Masks p).all oneBit && (cr2Bits p).all oneBit && (sr1Masks p).all oneBit && (ccrBits p).all oneBit
    && contiguous p.cr2Freq && contiguous p.ccrField && contiguous p.triseField
    && disjointMasks (cr1Masks p) && disjointMasks (p.cr2Freq :: cr2Bits p)
    && disjointMasks (sr1Masks p) && disjointMasks (p.ccrField :: ccrBits p)

/-- The numeric constraints (R8, R9, R11, R246). -/
def numbersOk (p : Params) : Bool :=
  p.base &&& 3 == 0 && p.evtIrq != p.errIrq
    && p.stdMaxHz != 0 && p.stdMaxHz.ule p.fastMaxHz && decide (p.fastMaxHz.toNat * 3 < 2 ^ 32)
    && p.stdTimeConst != 0 && p.fastTimeConst != 0
    && p.nreq != 0 && p.txePollLimit != some 0 && !p.useDuty

/-- No parameter constraint is broken; otherwise there is no run (R246; log 11). -/
def paramsOk (p : Params) : Bool := numbersOk p && masksOk p

end Sys2Proof.Machine
end

