-- ==== Sys2Proof/Machine/Ops.lean ====
section
/-! DEFINITION. The operations over memory, registers and the block's state that every meaning is made of (00_scope.md R13 to
R15): the memory primitives, the history, the lock, completion, the raises and faults. -/

namespace Sys2Proof.Machine

/-- The answer of a step. -/
abbrev Result := Host.Outcome State Fault Refusal

/-! ### Caller memory -/

/-- What an unlisted byte reads as (DESIGN CHOICE, log 7). -/
def Memory.blank : Byte := 0

/-- One byte. -/
def Memory.read : Memory → Nat → Byte
  | [], _ => Memory.blank
  | (k, b) :: m, a => if k = a then b else Memory.read m a

/-- One byte stored, the canonical form kept. -/
def Memory.write : Memory → Nat → Byte → Memory
  | [], a, b => if b = Memory.blank then [] else [(a, b)]
  | (k, c) :: m, a, b =>
    if a < k then (if b = Memory.blank then (k, c) :: m else (a, b) :: (k, c) :: m)
    else if a = k then (if b = Memory.blank then m else (a, b) :: m)
    else (k, c) :: Memory.write m a b

/-- All addresses are at least `lo`, rise strictly, fit in 32 bits (R50), and no listed byte is blank. -/
def Memory.wfFrom : Nat → Memory → Bool
  | _, [] => true
  | lo, (k, b) :: m => decide (lo ≤ k) && decide (k < 2 ^ 32) && b != Memory.blank && Memory.wfFrom (k + 1) m

/-- The canonical form. -/
def Memory.wf (m : Memory) : Bool := Memory.wfFrom 0 m

/-! ### Small updates of the state -/

/-- Append to the history (R30). -/
def State.log (s : State) (e : Event) : State := { s with history := s.history ++ [e] }

/-- `pc <- P` (R13): the indices are unchanged. -/
def State.goto (s : State) (ph : Phase) : State := { s with phase := ph }

/-- The working registers written. -/
def State.setX (s : State) (x : Regs) : State := { s with x := x }

/-- `req[r]`; a port that does not exist reads idle. -/
def State.slot (s : State) (r : Nat) : Slot := s.req.getD r .idle

/-- `req[r] <- v`. -/
def State.setSlot (s : State) (r : Nat) (v : Slot) : State := { s with req := s.req.set r v }

/-- `lock <- l`. -/
def State.setLock (s : State) (l : Lock) : State := { s with lock := l }

/-- `dev <- d`. -/
def State.setDev (s : State) (d : Dev) : State := { s with dev := d }

/-- `irq_mask <- b`. -/
def State.setIrqMask (s : State) (b : Bool) : State := { s with irqMask := b }

/-! ### Faults -/

/-- `fault F`: sticky, logged (00_scope.md R15, 60_exceptions.md R245). -/
def State.raiseFault (s : State) (f : Fault) : State :=
  match s.fault with
  | none => { s.log (.fault f) with fault := some f }
  | some _ => s

/-- What stops every agent: a fault already marked (R245), or a broken parameter constraint (R246). -/
def State.halted (s : State) : Option Fault :=
  match s.fault with
  | some f => some f
  | none => if paramsOk s.cfg then none else some .badParameters

/-- `k`, unless every agent is stopped. -/
def guarded (s : State) (k : Result) : Result :=
  match s.halted with
  | some f => .fault f
  | none => k

/-- The next state `t` of a micro-operation whose value `v` is the one the phase issues, `w`; otherwise the sequencer did not
issue it (log 12). -/
def issuing (v w : Word) (t : State) : Result :=
  if v = w then .next t else .refused .notIssued

/-! ### The memory primitives (R14) -/

/-- `RegRead(R)` answered with `v` (R60, R70). -/
def State.regRead (s : State) (r : Reg) (v : Word) : State := s.log (.regRead (regOffset r) v)

/-- `RegWrite(R, v)` (R60). -/
def State.regWrite (s : State) (r : Reg) (v : Word) : State := s.log (.regWrite (regOffset r) v)

/-- The bus address of a register, `BASE + off(R)` (R14, R60). -/
def regAddress (p : Params) (r : Reg) : Word := p.base + (regOffset r).zeroExtend 32

/-- The access of `n` bytes at `a` lies inside one region lent for the call of the lock's owner (R62; log 8). Addresses are
compared as naturals, so a region never wraps past 2^32 although buffer addresses do (R171): the spec is silent on a region's
form (DESIGN CHOICE, log 8). -/
def State.admits (s : State) (a n : Nat) : Bool :=
  s.lent.any fun g => g.owner == s.x.owner && decide (g.base ≤ a) && decide (a + n ≤ g.base + g.size)

/-- `CMemRead(a, 1)`: the byte, where caller memory admits the access (R62). -/
def State.cmemByte (s : State) (a : Word) : Option Byte :=
  if s.admits a.toNat 1 then some (s.cmem.read a.toNat) else none

/-- `CMemRead(a, 4)`: the little-endian word, where caller memory admits the access (R62, R63). -/
def State.cmemWord (s : State) (a : Word) : Option Word :=
  if s.admits a.toNat 4 then
    some (s.cmem.read (a.toNat + 3) ++ s.cmem.read (a.toNat + 2) ++ s.cmem.read (a.toNat + 1)
      ++ s.cmem.read a.toNat)
  else none

/-- `CMemWrite(a, 1, b)` with its event; a refused access is a fault (R62, R171). -/
def State.cmemStore (s : State) (a : Word) (b : Byte) : State :=
  { s with cmem := s.cmem.write a.toNat b }.log (.cMemWrite a 1 (dataWord b))

/-! ### Completion and the lock -/

/-- `complete(r, st)` (R15). -/
def State.complete (s : State) (r : Nat) (st : Status) : State :=
  (s.setSlot r (.done st)).log (.complete r st)

/-- The lock taken for `r`, with the owner and the slot (20_memory.md R76, 42_device_surface.md R204, R209). -/
def State.takeLock (s : State) (r : Nat) : State :=
  (((s.setLock (.held r)).setX { s.x with owner := r }).setSlot r .running).log (.lockAcq r)

/-- `release(r)` (R77). -/
def State.release (s : State) (r : Nat) : State :=
  ((s.setLock .free).goto .idle).log (.lockRel r)

/-- The last phase of a command: `release(x[OWNER])` and `complete(x[OWNER], st)` (R77). -/
def State.finish (s : State) (st : Status) : State :=
  (s.release s.x.owner).complete s.x.owner st

/-- The dispatch step of a command on the dispatcher's port: enabled when the port shows the command, logged, then `k` is
its one case (R201). -/
def dispatching (s : State) (code a0 a1 : Word) (k : State → State) : Result :=
  guarded s
    (if s.slot s.port = .submitted code a0 a1 then .next (k (s.log (.dispatch s.port code))) else .refused .notIssued)

/-! ### The counting signal and the interrupt mask -/

/-- `post()`: saturating (R79). -/
def State.post (s : State) : State :=
  { s with sig := if s.sig = BitVec.allOnes 32 then s.sig else s.sig + 1 }

/-- The mask set for the write loop, its old value saved (41_transfer_engine.md R170). -/
def State.maskInterrupts (s : State) : State :=
  ((s.setX { s.x with irqSaved := s.irqMask }).setIrqMask true).log .maskSet

/-- The saved mask restored (R175). -/
def State.restoreInterrupts (s : State) : State :=
  (s.setIrqMask s.x.irqSaved).log (.maskRestore s.x.irqSaved)

/-! ### Raising an error -/

/-- `x[ERR]` keeps the first error (60_exceptions.md R236 to R238). -/
def firstError (old new : Status) : Status := if old = .ok then new else old

/-- The entry every transfer error shares: the first error is kept and control goes to the stop (R239). -/
def State.abortTransfer (s : State) (st : Status) : State :=
  (s.setX { s.x with err := firstError s.x.err st }).goto .txStop

/-- `raise BusError(v)` (R236). -/
def State.raiseBusError (s : State) (v : Word) : State :=
  { s with errSr1 := v }.abortTransfer .ebus

/-- `raise Timeout` (R237). -/
def State.raiseTimeout (s : State) : State :=
  s.restoreInterrupts.abortTransfer .etimedout

end Sys2Proof.Machine
end

