-- ==== Sys2Proof/Machine/Operands.lean ====
section
/-! DEFINITION. The words the sequencer puts on the register bus and the addresses it gives to caller memory (30_encoding.md
R107 to R113), and the computation of the Timing Configurator (40_timing_configurator.md R133 to R137). -/

namespace Sys2Proof.Machine

/-! ### Arithmetic of the Timing Configurator -/

/-- Truncating unsigned division (R12, R137); a quotient by zero, which no run evaluates, is a free value (log 16). -/
def quotient (a b : Word) : Word := if b = 0 then Config.quotientByZero a else a / b

/-- The divider value of both grades (R134). -/
def plainDivider (p : Params) (hz : Word) : Word := quotient p.inputClockHz (hz * 3)

/-- The divider value, with the duty-cycle branch kept and unreachable (R134, R136). -/
def dividerOf (p : Params) (hz : Word) (fast : Bool) : Word :=
  if p.useDuty && fast then Config.dutyDivider p.inputClockHz hz else plainDivider p hz

/-- The rise-time value (R135). -/
def riseOf (p : Params) (fast : Bool) : Word :=
  quotient p.inputClockHz (if fast then p.fastTimeConst else p.stdTimeConst) + 1

/-- `x[FAST]`, `x[DIV]`, `x[TR]` from `x[HZ]` (R133 to R136). -/
def computeTiming (p : Params) (x : Regs) : Regs :=
  { x with
    fast := isFast p x.hz
    div := dividerOf p x.hz (isFast p x.hz)
    tr := riseOf p (isFast p x.hz) }

/-! ### Words for the register bus -/

/-- A CR1 word with the enable bit cleared (R112 (c)). -/
def disableWord (p : Params) (v : Word) : Word := v &&& ~~~p.cr1Pe

/-- A CR1 word with the enable bit set (R112 (e)). -/
def enableWord (p : Params) (v : Word) : Word := v ||| p.cr1Pe

/-- The CCR word: the speed-grade bit OR the divider, unmasked (R110, R136). -/
def ccrWord (p : Params) (x : Regs) : Word :=
  (if x.fast then p.ccrFs else 0) ||| x.div ||| (if p.useDuty && x.fast then p.ccrDuty else 0)

/-! ### Addresses in caller memory -/

/-- The address of the current message's descriptor, modulo 2^32 (R163). -/
def descriptorAddress (x : Regs) : Word := x.msgs + 12 * x.mi

/-- The address of the current buffer byte, modulo 2^32 (R63, R171, R174). -/
def byteAddress (x : Regs) : Word := x.buf + x.bi

/-- The payload byte the current write phase reads; 0 stands in where the read is refused (the phase then faults). -/
def State.payload (s : State) : Byte := (s.cmemByte (byteAddress s.x)).getD 0

/-! ### The tuple a phase puts on the bus -/

/-- The value field of the tuple: the word written, or for a read the oracle's answer `v` (R114). -/
def State.busValue (s : State) (row : MicroRow) (v : Word) : Word :=
  match row with
  | .start => startWord s.cfg
  | .stop => stopWord s.cfg
  | .cr1Disable => if s.phase = .clDisable then disableWord s.cfg s.x.tmp else disableWord s.cfg s.x.old
  | .cr1Restore => s.x.old
  | .cr1Enable => enableWord s.cfg s.x.tmp
  | .cr1Read => v
  | .cr2Init => s.cfg.cr2InitWord
  | .addr => addressWord s.x.addr s.x.rd
  | .wdata => dataWord s.payload
  | .rdata => v
  | .status => v
  | .clraddr => v
  | .ccrSet => ccrWord s.cfg s.x
  | .triseSet => s.x.tr

/-- The `REGOP` tuple the current phase issues, if it issues one (R114). -/
def State.regOp (s : State) (v : Word) : Option RegOp :=
  match phaseRow s.phase with
  | none => none
  | some row => some (rowOp row (s.busValue row v))

end Sys2Proof.Machine
end

