-- ==== Sys2Proof/Machine/Surface.lean ====
section
/-! DEFINITION. The device-facing surface: OPEN, CLOSE, unrecognised commands, and the phases of OPEN and CLOSE
(42_device_surface.md R200 to R218). -/

namespace Sys2Proof.Machine

/-! ### The phases -/

/-- `OP_WR_CR2` with the internal call of the Timing Configurator (R205, R206). -/
def opWrCr2 (s : State) : State :=
  ((s.regWrite .cr2 s.cfg.cr2InitWord).setX { s.x with hz := s.cfg.stdMaxHz, ret := .opening }).goto .sfRdCr1

/-- `OP_RD_CR1` (R207). -/
def opRdCr1 (v : Word) (s : State) : State :=
  ((s.regRead .cr1 v).setX { s.x with tmp := v }).goto .opEnable

/-- `OP_ENABLE` (R208). -/
def opEnable (s : State) : State := (s.regWrite .cr1 (enableWord s.cfg s.x.tmp)).finish .ok

/-- `CL_RD_CR1` (R210). -/
def clRdCr1 (v : Word) (s : State) : State :=
  ((s.regRead .cr1 v).setX { s.x with tmp := v }).goto .clDisable

/-- `CL_DISABLE`: the device closes unless a command came to wait meanwhile (R211). -/
def clDisable (s : State) : State :=
  let s1 := s.regWrite .cr1 (disableWord s.cfg s.x.tmp)
  if anyWaiting s then s1.raiseFault .closeWhileBusy else (s1.setDev .closed).finish .ok

/-! ### The commands -/

/-- The case of OPEN that applies at dispatch, first applicable (R204). -/
def openCase (s : State) : State :=
  if s.cfg.cfgAttached = false then s.complete s.port .einval
  else if s.dev = .opened then s.complete s.port .einval
  else if s.allocOk = false then s.complete s.port .enomem
  else
    let s1 := { s with dev := .opened, sig := 0 }.takeLock s.port
    (s1.setX { s1.x with op := 1 }).goto .opWrCr2

/-- The case of CLOSE that applies at dispatch, first applicable (R209). The requester itself is not waiting: its command
is the one on the port. -/
def closeCase (s : State) : State :=
  if s.dev = .closed then s.complete s.port .einval
  else if s.lock ≠ .free ∨ anyWaiting s = true then s.raiseFault .closeWhileBusy
  else
    let s1 := s.takeLock s.port
    (s1.setX { s1.x with op := 2 }).goto .clRdCr1

/-- OPEN (R203, R204). -/
def execCmdOpen (a0 a1 : Word) (s : State) : Result := dispatching s 1 a0 a1 openCase

/-- CLOSE (R209). -/
def execCmdClose (a0 a1 : Word) (s : State) : Result := dispatching s 2 a0 a1 closeCase

/-- Any other command word: `EINVAL` and nothing else (R104, R212). -/
def execCmdUnrecognised (code a0 a1 : Word) (s : State) : Result :=
  if isCommandCode code then guarded s (.refused .notIssued)
  else dispatching s code a0 a1 fun t => t.complete t.port .einval

end Sys2Proof.Machine
end

