-- ==== Sys2Proof/Machine/Timing.lean ====
section
/-! DEFINITION. The Timing Configurator: the dispatch of SET_FREQUENCY, the start of the routine and its phases
(40_timing_configurator.md R130 to R145). -/

namespace Sys2Proof.Machine

/-! ### The phases -/

/-- The operands loaded after `acquire` on `WaitLock(4, hz, a1)`, and the first phase: the routine, or the rejection that
touches CR1 (R140, R138, R202). -/
def setFrequencyStart (hz : Word) (s : State) : State :=
  (s.setX { s.x with op := 4, hz := hz, ret := .ioctl }).goto
    (if overCeiling s.cfg hz then .sfrRdCr1 else .sfRdCr1)

/-- `SF_RD_CR1` (R141). -/
def sfRdCr1 (v : Word) (s : State) : State :=
  ((s.regRead .cr1 v).setX { s.x with old := v }).goto .sfDisable

/-- `SF_DISABLE`, with the computation in the same step (R142). -/
def sfDisable (s : State) : State :=
  ((s.regWrite .cr1 (disableWord s.cfg s.x.old)).setX (computeTiming s.cfg s.x)).goto .sfWrCcr

/-- `SF_WR_CCR` (R143). -/
def sfWrCcr (s : State) : State := (s.regWrite .ccr (ccrWord s.cfg s.x)).goto .sfWrTrise

/-- `SF_WR_TRISE` (R144). -/
def sfWrTrise (s : State) : State := (s.regWrite .trise s.x.tr).goto .sfRestore

/-- `SF_RESTORE`: back to the ioctl surface or to OPEN (R145). -/
def sfRestore (s : State) : State :=
  match s.x.ret with
  | .ioctl => (s.regWrite .cr1 s.x.old).finish .ok
  | .opening => (s.regWrite .cr1 s.x.old).goto .opRdCr1

/-- `SFR_RD_CR1` (R138). -/
def sfrRdCr1 (v : Word) (s : State) : State :=
  ((s.regRead .cr1 v).setX { s.x with old := v }).goto .sfrDisable

/-- `SFR_DISABLE` (R138). -/
def sfrDisable (s : State) : State := (s.regWrite .cr1 (disableWord s.cfg s.x.old)).goto .sfrRestore

/-- `SFR_RESTORE` (R138). -/
def sfrRestore (s : State) : State := (s.regWrite .cr1 s.x.old).finish .einval

/-! ### The command -/

/-- The case of SET_FREQUENCY that applies at dispatch, first applicable (R131, R132, R138, R139). -/
def setFrequencyCase (hz a1 : Word) (s : State) : State :=
  if s.dev = .closed then s.complete s.port .einval
  else if overCeiling s.cfg hz then
    if s.cfg.rejectTouchesCr1 then s.setSlot s.port (.waitLock 4 hz a1) else s.complete s.port .einval
  else if hz = 0 then s.raiseFault .setFreqZeroHz
  else s.setSlot s.port (.waitLock 4 hz a1)

/-- SET_FREQUENCY (R130, R131). -/
def execCmdSetFrequency (hz a1 : Word) (s : State) : Result :=
  dispatching s 4 hz a1 (setFrequencyCase hz a1)

end Sys2Proof.Machine
end

