-- ==== Sys2Proof/Machine/Transfer.lean ====
section
/-! DEFINITION. The Transfer Engine: the dispatch of EXECUTE_TRANSFER and the phases of a transfer
(41_transfer_engine.md R160 to R183). -/

namespace Sys2Proof.Machine

/-! ### The phases -/

/-- The operands loaded after `acquire` on `WaitLock(3, messages, count)` (R162). -/
def transferStart (messages count : Word) (s : State) : State :=
  (s.setX { s.x with op := 3, msgs := messages, cnt := count, mi := 0, err := .ok }).goto .txFetch

/-- The attributes of the current message in the working registers (R163). -/
def loadMessage (d : Descriptor) (x : Regs) : Regs :=
  { x with addr := d.addr, rd := d.rd, len := d.len, buf := d.buf }

/-- `TX_FETCH`: three descriptor words in one step; a misaligned pointer or a refused read is a fault (R163, R64; log 9). -/
def txFetch (s : State) : State :=
  if s.x.msgs &&& 3 ≠ 0 then s.raiseFault .callerMemRefused
  else
    let a := descriptorAddress s.x
    match s.cmemWord a with
    | none => s.raiseFault .callerMemRefused
    | some w0 =>
      let s1 := s.log (.cMemRead a 4 w0)
      match s.cmemWord (a + 4) with
      | none => s1.raiseFault .callerMemRefused
      | some w1 =>
        let s2 := s1.log (.cMemRead (a + 4) 4 w1)
        match s.cmemWord (a + 8) with
        | none => s2.raiseFault .callerMemRefused
        | some w2 =>
          ((s2.log (.cMemRead (a + 8) 4 w2)).setX (loadMessage (.ofWords w0 w1 w2) s.x)).goto .txStart

/-- `TX_START` (R165). -/
def txStart (s : State) : State := (s.regWrite .cr1 (startWord s.cfg)).goto .txStartSt

/-- A status read that tests the error mask: an error aborts, else control goes to `good` (R166, R168). -/
def checkedStatus (v : Word) (good : Phase) (s : State) : State :=
  let s1 := (s.regRead .sr1 v).setX { s.x with sr := v }
  if hasError s.cfg v then s1.raiseBusError v else s1.goto good

/-- `TX_START_ST` (R166). -/
def txStartSt (v : Word) (s : State) : State := checkedStatus v .txAddr s

/-- `TX_ADDR` (R167). -/
def txAddr (s : State) : State := (s.regWrite .dr (addressWord s.x.addr s.x.rd)).goto .txAddrSt

/-- `TX_ADDR_ST` (R168). -/
def txAddrSt (v : Word) (s : State) : State := checkedStatus v .txAddrClr s

/-- `TX_ADDR_CLR`: the value is discarded (R169). -/
def txAddrClr (v : Word) (s : State) : State := (s.regRead .sr2 v).goto .txData

/-- `TX_DATA`: the byte index cleared, and for a write message the mask bracket opened (R170). -/
def txData (s : State) : State :=
  let s1 := s.setX { s.x with bi := 0 }
  if s.x.rd = 1 then s1.goto (if s.x.len = 0 then .txNext else .txRdByte)
  else
    let s2 := s1.maskInterrupts
    let s3 := s2.setX { s2.x with polls := 0 }
    if s.x.len = 0 then s3.restoreInterrupts.goto .txNext else s3.goto .txWrPoll

/-- `TX_RD_BYTE`: the byte read from DR goes to the buffer; a refused store is a fault after the read (R171). -/
def txRdByte (v : Word) (s : State) : State :=
  let s1 := s.regRead .dr v
  if s.admits (byteAddress s.x).toNat 1 then
    let s2 := s1.cmemStore (byteAddress s.x) (v.extractLsb' 0 8)
    let s3 := s2.setX { s2.x with bi := s2.x.bi + 1 }
    s3.goto (if moreBytes s3.x then .txRdByte else .txNext)
  else s1.raiseFault .callerMemRefused

/-- `TX_WR_POLL`: only transmit-empty is tested; a finite bound raises the timeout (R172, R173). -/
def txWrPoll (v : Word) (s : State) : State :=
  let s1 := (s.regRead .sr1 v).setX { s.x with sr := v, polls := s.x.polls + 1 }
  if txeSet s.cfg v then s1.goto .txWrByte
  else if pollLimitReached s.cfg s1.x.polls then s1.raiseTimeout
  else s1.goto .txWrPoll

/-- `TX_WR_BYTE`: a payload byte from the buffer to DR, the mask restored after the last (R174). -/
def txWrByte (s : State) : State :=
  match s.cmemByte (byteAddress s.x) with
  | none => s.raiseFault .callerMemRefused
  | some b =>
    let s1 := (s.log (.cMemRead (byteAddress s.x) 1 (dataWord b))).regWrite .dr (dataWord b)
    let s2 := s1.setX { s1.x with bi := s1.x.bi + 1, polls := 0 }
    if moreBytes s2.x then s2.goto .txWrPoll else s2.restoreInterrupts.goto .txNext

/-- `TX_NEXT`: the next message without a stop, or the stop (R177). -/
def txNext (s : State) : State :=
  if moreMessages s.x then (s.setX { s.x with mi := s.x.mi + 1 }).goto .txFetch else s.goto .txStop

/-- `TX_STOP`: on every path (R179). -/
def txStop (s : State) : State := (s.regWrite .cr1 (stopWord s.cfg)).goto .txDone

/-- `TX_DONE`: release, and the first error or success (R180). -/
def txDone (s : State) : State := s.finish s.x.err

/-! ### The command -/

/-- The case of EXECUTE_TRANSFER that applies at dispatch, first applicable (R161). -/
def transferCase (messages count : Word) (s : State) : State :=
  if s.dev = .closed then s.complete s.port .einval
  else if count = 0 then s.complete s.port .ok
  else s.setSlot s.port (.waitLock 3 messages count)

/-- EXECUTE_TRANSFER (R160, R161). -/
def execCmdExecuteTransfer (messages count : Word) (s : State) : Result :=
  dispatching s 3 messages count (transferCase messages count)

end Sys2Proof.Machine
end

