-- ==== Sys2Proof/Machine/Micro.lean ====
section
/-! DEFINITION. The micro-operations on the register bus (30_encoding.md R114): each runs the phase rule of the phase that
issues it. A micro-operation that the current phase does not issue with this value is refused (log 12). -/

namespace Sys2Proof.Machine

/-- START (R165). -/
def execUopStart (s : State) : Result :=
  guarded s <|
    match s.phase with
    | .txStart => .next (txStart s)
    | _ => .refused .notIssued

/-- STOP (R179). -/
def execUopStop (s : State) : Result :=
  guarded s <|
    match s.phase with
    | .txStop => .next (txStop s)
    | _ => .refused .notIssued

/-- CR1_DISABLE (R142, R138, R211). -/
def execUopCr1Disable (v : Word) (s : State) : Result :=
  guarded s <|
    match s.phase with
    | .sfDisable => issuing v (disableWord s.cfg s.x.old) (sfDisable s)
    | .sfrDisable => issuing v (disableWord s.cfg s.x.old) (sfrDisable s)
    | .clDisable => issuing v (disableWord s.cfg s.x.tmp) (clDisable s)
    | _ => .refused .notIssued

/-- CR1_RESTORE (R145, R138). -/
def execUopCr1Restore (v : Word) (s : State) : Result :=
  guarded s <|
    match s.phase with
    | .sfRestore => issuing v s.x.old (sfRestore s)
    | .sfrRestore => issuing v s.x.old (sfrRestore s)
    | _ => .refused .notIssued

/-- CR1_ENABLE (R208). -/
def execUopCr1Enable (v : Word) (s : State) : Result :=
  guarded s <|
    match s.phase with
    | .opEnable => issuing v (enableWord s.cfg s.x.tmp) (opEnable s)
    | _ => .refused .notIssued

/-- CR1_READ: any value may be read (R141, R138, R207, R210, R70). -/
def execUopCr1Read (v : Word) (s : State) : Result :=
  guarded s <|
    match s.phase with
    | .sfRdCr1 => .next (sfRdCr1 v s)
    | .sfrRdCr1 => .next (sfrRdCr1 v s)
    | .opRdCr1 => .next (opRdCr1 v s)
    | .clRdCr1 => .next (clRdCr1 v s)
    | _ => .refused .notIssued

/-- CR2_INIT (R205). -/
def execUopCr2Init (v : Word) (s : State) : Result :=
  guarded s <|
    match s.phase with
    | .opWrCr2 => issuing v s.cfg.cr2InitWord (opWrCr2 s)
    | _ => .refused .notIssued

/-- ADDR (R167). -/
def execUopAddr (addr : BitVec 7) (rd : BitVec 1) (s : State) : Result :=
  guarded s <|
    match s.phase with
    | .txAddr => issuing (addressWord addr rd) (addressWord s.x.addr s.x.rd) (txAddr s)
    | _ => .refused .notIssued

/-- WDATA (R174). Where caller memory refuses the payload read, the phase faults whatever the byte. -/
def execUopWdata (b : Byte) (s : State) : Result :=
  guarded s <|
    match s.phase with
    | .txWrByte => issuing (dataWord b) (dataWord ((s.cmemByte (byteAddress s.x)).getD b)) (txWrByte s)
    | _ => .refused .notIssued

/-- RDATA (R171, R70). -/
def execUopRdata (v : Word) (s : State) : Result :=
  guarded s <|
    match s.phase with
    | .txRdByte => .next (txRdByte v s)
    | _ => .refused .notIssued

/-- STATUS (R166, R168, R172, R70). -/
def execUopStatus (v : Word) (s : State) : Result :=
  guarded s <|
    match s.phase with
    | .txStartSt => .next (txStartSt v s)
    | .txAddrSt => .next (txAddrSt v s)
    | .txWrPoll => .next (txWrPoll v s)
    | _ => .refused .notIssued

/-- CLRADDR (R169, R70). -/
def execUopClraddr (v : Word) (s : State) : Result :=
  guarded s <|
    match s.phase with
    | .txAddrClr => .next (txAddrClr v s)
    | _ => .refused .notIssued

/-- CCR_SET (R143). -/
def execUopCcrSet (v : Word) (s : State) : Result :=
  guarded s <|
    match s.phase with
    | .sfWrCcr => issuing v (ccrWord s.cfg s.x) (sfWrCcr s)
    | _ => .refused .notIssued

/-- TRISE_SET (R144). -/
def execUopTriseSet (v : Word) (s : State) : Result :=
  guarded s <|
    match s.phase with
    | .sfWrTrise => issuing v s.x.tr (sfWrTrise s)
    | _ => .refused .notIssued

end Sys2Proof.Machine
end

