-- ==== Sys2Proof/Machine/Dispatch.lean ====
section
/-! DEFINITION. What each instruction does: one arm per constructor. -/

namespace Sys2Proof.Machine

/-- The effect of an instruction. -/
def exec (i : Instr) (s : State) : Host.Outcome State Fault Refusal :=
  match i with
  -- the commands (42_device_surface.md R201)
  | .cmdOpen a0 a1 => Sys2Proof.Machine.execCmdOpen a0 a1 s
  | .cmdClose a0 a1 => Sys2Proof.Machine.execCmdClose a0 a1 s
  | .cmdExecuteTransfer messages count => Sys2Proof.Machine.execCmdExecuteTransfer messages count s
  | .cmdSetFrequency hz a1 => Sys2Proof.Machine.execCmdSetFrequency hz a1 s
  | .cmdUnrecognised code a0 a1 => Sys2Proof.Machine.execCmdUnrecognised code a0 a1 s
  -- the micro-operations (30_encoding.md R114)
  | .uopStart => Sys2Proof.Machine.execUopStart s
  | .uopStop => Sys2Proof.Machine.execUopStop s
  | .uopCr1Disable val => Sys2Proof.Machine.execUopCr1Disable val s
  | .uopCr1Restore val => Sys2Proof.Machine.execUopCr1Restore val s
  | .uopCr1Enable val => Sys2Proof.Machine.execUopCr1Enable val s
  | .uopCr1Read val => Sys2Proof.Machine.execUopCr1Read val s
  | .uopCr2Init val => Sys2Proof.Machine.execUopCr2Init val s
  | .uopAddr addr rd => Sys2Proof.Machine.execUopAddr addr rd s
  | .uopWdata b => Sys2Proof.Machine.execUopWdata b s
  | .uopRdata val => Sys2Proof.Machine.execUopRdata val s
  | .uopStatus val => Sys2Proof.Machine.execUopStatus val s
  | .uopClraddr val => Sys2Proof.Machine.execUopClraddr val s
  | .uopCcrSet val => Sys2Proof.Machine.execUopCcrSet val s
  | .uopTriseSet val => Sys2Proof.Machine.execUopTriseSet val s

end Sys2Proof.Machine
end

