-- ==== Sys2Proof/Machine/Agents.lean ====
section
/-! DEFINITION. The agents (00_scope.md R19) and what each does in one atomic step: requesters, dispatcher, lock
acquisition, sequencer, interrupt handlers. A move that is not enabled leaves the state as it is (log 2). -/

namespace Sys2Proof.Machine

/-! ### Requesters -/

/-- The regions lent by requester `r` taken back. -/
def State.unlend (s : State) (r : Nat) : State := { s with lent := s.lent.filter fun g => g.owner != r }

/-- The regions lent by requester `r` for its call (20_memory.md R62; log 8). -/
def State.lend (s : State) (r : Nat) (regions : List (Nat × Nat)) : State :=
  { s with
    lent := s.lent.filter (fun g => g.owner != r)
      ++ regions.map fun q => { owner := r, base := q.1, size := q.2 } }

/-- Requester `r` puts a command on its port: only from `Idle` (10_state.md R29). -/
def submit (r : Nat) (code a0 a1 : Word) (regions : List (Nat × Nat)) (s : State) : State :=
  if r < s.req.length ∧ s.slot r = .idle then (s.lend r regions).setSlot r (.submitted code a0 a1) else s

/-- Requester `r` collects its status, and the lent memory is its own again (R29, 60_exceptions.md R248). -/
def collect (r : Nat) (s : State) : State :=
  match s.slot r with
  | .done _ => (s.unlend r).setSlot r .idle
  | _ => s

/-- The owner of caller memory writes one byte of it, at any time (20_memory.md R81; log 19). -/
def callerWrite (a : Word) (b : Byte) (s : State) : State := { s with cmem := s.cmem.write a.toNat b }

/-- The status word a requester reads on its port when its command is done (R106). -/
def statusWord (s : State) (r : Nat) : Option Word :=
  match s.slot r with
  | .done st => some st.toWord
  | _ => none

/-! ### The dispatcher -/

/-- The port whose command is taken. -/
def State.withPort (s : State) (r : Nat) : State := { s with port := r }

/-- The dispatcher fetches the command of port `r`, decodes it and runs it (42_device_surface.md R201). -/
def dispatchPort (r : Nat) (s : State) : Result :=
  match s.slot r with
  | .submitted code a0 a1 => exec (decodeCommand code a0 a1) (s.withPort r)
  | _ => .next s

/-! ### The lock -/

/-- The start of a waiting command that has the lock (R76, R202). Only codes 3 and 4 ever wait (log 21). -/
def startWaiting (r : Nat) (code a0 a1 : Word) (s : State) : State :=
  if code = 3 then transferStart a0 a1 (s.takeLock r)
  else if code = 4 then setFrequencyStart a0 (s.takeLock r)
  else s

/-- `acquire(r)`: enabled when `r` waits, the lock is free and the device open (R76). -/
def acquire (r : Nat) (s : State) : State :=
  match s.slot r with
  | .waitLock code a0 a1 => if s.lock = .free ∧ s.dev = .opened then startWaiting r code a0 a1 s else s
  | _ => s

/-! ### The sequencer -/

/-- A phase without a register-bus access (41_transfer_engine.md R163, R170, R177, R180); in `IDLE` the sequencer has no
step. -/
def silentPhase (s : State) : State :=
  match s.phase with
  | .txFetch => txFetch s
  | .txData => txData s
  | .txNext => txNext s
  | .txDone => txDone s
  | _ => s

/-- One step of the sequencer: the tuple its phase puts on the bus is decoded and run, a register read answered with
`v` (00_scope.md R16, 20_memory.md R70). -/
def sequencerStep (v : Word) (s : State) : Result :=
  match s.regOp v with
  | none => .next (silentPhase s)
  | some op =>
    match decodeRegOp s.cfg (some s.phase) op with
    | .ok i => exec i s
    | .error _ => .refused .notDecoded

/-! ### The interrupt handlers -/

/-- The event handler (60_exceptions.md R240). -/
def evtHandler (s : State) : State :=
  if s.evtLine = true ∧ s.evtEn = true ∧ s.irqMask = false then
    if s.dev = .closed then s.raiseFault .irqWhileClosed
    else ({ s with evtEn := false }.log (.lineDisable .evt)).post.log (.post .evt)
  else s

/-- The error handler (R241). -/
def errHandler (s : State) : State :=
  if s.errLine = true ∧ s.errEn = true ∧ s.irqMask = false then
    if s.dev = .closed then s.raiseFault .irqWhileClosed else s.post.log (.post .err)
  else s

/-! ### Turns -/

/-- The next turn: the first of the list, or a free one (log 1). -/
def State.turn (s : State) : Turn :=
  match s.turns with
  | t :: _ => t
  | [] => Config.freeTurn s.tick

/-- The state in which the turn's move is made: its input levels on the pins, the turn taken. -/
def State.takeTurn (s : State) : State :=
  { s with
    evtLine := s.turn.evtLine
    errLine := s.turn.errLine
    allocOk := s.turn.allocOk
    turns := s.turns.tail
    tick := s.tick + 1 }

/-- The move of an agent. -/
def move (m : Move) (s : State) : Result :=
  match m with
  | .submit r code a0 a1 regions => .next (submit r code a0 a1 regions s)
  | .collect r => .next (collect r s)
  | .callerWrite a b => .next (callerWrite a b s)
  | .dispatch r => dispatchPort r s
  | .acquire r => .next (acquire r s)
  | .sequencer v => sequencerStep v s
  | .evtHandler => .next (evtHandler s)
  | .errHandler => .next (errHandler s)

/-! ### Placing an instruction -/

/-- A turn for `m` with the input levels as they are. -/
def State.turnFor (s : State) (m : Move) : Turn :=
  { move := m, evtLine := s.evtLine, errLine := s.errLine, allocOk := s.allocOk }

/-- A command placed on port 0, and the dispatcher's turn (log 15). -/
def State.placeCommand (s : State) (code a0 a1 : Word) : State :=
  { s with
    req := s.req.set 0 (.submitted code a0 a1)
    turns := s.turnFor (.dispatch 0) :: s.turns }

/-- The sequencer brought to the phase `ph` of a command of requester 0, and its turn (log 15). -/
def State.placePhase (s : State) (ph : Phase) (x : Regs) (v : Word) : State :=
  { s with
    x := { x with owner := 0 }
    phase := ph
    dev := .opened
    lock := .held 0
    req := s.req.set 0 .running
    turns := s.turnFor (.sequencer v) :: s.turns }

/-- One byte at address 0 lent by requester 0 as the current buffer (log 15). -/
def State.placeBuffer (s : State) (b : Byte) : State :=
  { s with cmem := s.cmem.write 0 b, lent := { owner := 0, base := 0, size := 1 } :: s.lent }

/-- The state brought to where its next step fetches and runs `i` (log 15). -/
def State.placeInstr (s : State) (i : Instr) : State :=
  match i with
  | .cmdOpen a0 a1 => s.placeCommand 1 a0 a1
  | .cmdClose a0 a1 => s.placeCommand 2 a0 a1
  | .cmdExecuteTransfer messages count => s.placeCommand 3 messages count
  | .cmdSetFrequency hz a1 => s.placeCommand 4 hz a1
  | .cmdUnrecognised code a0 a1 => s.placeCommand code a0 a1
  | .uopStart => s.placePhase .txStart s.x 0
  | .uopStop => s.placePhase .txStop s.x 0
  | .uopCr1Disable v => s.placePhase .sfDisable { s.x with old := v } 0
  | .uopCr1Restore v => s.placePhase .sfRestore { s.x with old := v } 0
  | .uopCr1Enable v => s.placePhase .opEnable { s.x with tmp := v } 0
  | .uopCr1Read v => s.placePhase .sfRdCr1 s.x v
  | .uopCr2Init v => { s.placePhase .opWrCr2 s.x 0 with cfg := { s.cfg with cr2InitWord := v } }
  | .uopAddr addr rd => s.placePhase .txAddr { s.x with addr := addr, rd := rd } 0
  | .uopWdata b => (s.placePhase .txWrByte { s.x with rd := 0, bi := 0, len := 1, buf := 0 } 0).placeBuffer b
  | .uopRdata v => (s.placePhase .txRdByte { s.x with rd := 1, bi := 0, len := 1, buf := 0 } v).placeBuffer 0
  | .uopStatus v => s.placePhase .txStartSt s.x v
  | .uopClraddr v => s.placePhase .txAddrClr s.x v
  | .uopCcrSet v => s.placePhase .sfWrCcr { s.x with fast := false, div := v } 0
  | .uopTriseSet v => s.placePhase .sfWrTrise { s.x with tr := v } 0

end Sys2Proof.Machine
end

