-- ==== Sys2Proof/Machine/Step.lean ====
section
/-! DEFINITION. One step of the machine (00_scope.md R16): the agent whose turn it is moves, unless a fault is marked or a
parameter constraint broken. -/

namespace Sys2Proof.Machine

/-- One step. -/
def step (s : State) : Host.Outcome State Fault Refusal := guarded s (move s.turn.move s.takeTurn)

/-- `s` with the instruction of those bits placed where the next step fetches it: a command on port 0 with the
dispatcher's turn, a micro-operation as the tuple of the sequencer's phase with the sequencer's turn (log 15). -/
def State.withFetchWord (s : State) (nbits w : Nat) : State :=
  match decodeTableWordWith s.cfg nbits w with
  | some i => s.placeInstr i
  | none => s

end Sys2Proof.Machine
end

