-- ==== Sys2Proof/Machine/Registry.lean ====
section
/-! DEFINITION. Several controller instances (60_exceptions.md R256): a registry of whole copies of the block, each with its
own parameters and state. -/

namespace Sys2Proof.Machine

/-- The owned controller instances (R256), a list of states (DESIGN CHOICE of form, log 24). Caller memory is no state of the
block (R20, R50) and the spec does not say whether two instances see one caller memory: here each has its own, with its
State (DESIGN CHOICE, log 30). -/
abbrev Registry := List State

/-- The register ranges of two instances, 36 bytes from `BASE` modulo 2^32 (10_state.md R31), do not overlap. -/
def rangesApart (p q : Params) : Bool := decide (36 ≤ (q.base - p.base).toNat) && decide (36 ≤ (p.base - q.base).toNat)

/-- No two instances overlap: the registries the spec describes (R256). -/
def Registry.apart : Registry → Bool
  | [] => true
  | s :: rest => rest.all (fun t => rangesApart s.cfg t.cfg) && Registry.apart rest

/-- Instance `k` after its own step; the others are untouched (R256). An index that names no instance leaves the registry
as it is: the spec has no such step (DESIGN CHOICE, log 28). -/
def Registry.stepInstance (ms : Registry) (k : Nat) : Host.Outcome Registry Fault Refusal :=
  match ms[k]? with
  | none => .next ms
  | some s =>
    match Machine.step s with
    | .next t => .next (ms.set k t)
    | .fault f => .fault f
    | .refused r => .refused r

/-- One step of instance `k`. Overlapping instances have no run: every step is refused (93_implementation_defined.md U27;
log 24). -/
def Registry.step (ms : Registry) (k : Nat) : Host.Outcome Registry Fault Refusal :=
  if Registry.apart ms then Registry.stepInstance ms k else .refused .overlappingInstances

end Sys2Proof.Machine
end

