-- ==== Sys2Proof/Safety.lean ====
section
/-! DEFINITION. What a good run is: the final states (70_reset_and_hazards.md R274), the invariants the rules give, the
brackets of the history, and which working registers a phase still needs. -/

namespace Sys2Proof.Safety

open Sys2Proof Sys2Proof.Machine

/-! ### The end of a run -/

/-- The slot needs no further step of the block. -/
def slotAtRest : Slot → Bool
  | .idle => true
  | .done _ => true
  | .submitted _ _ _ => false
  | .waitLock _ _ _ => false
  | .running => false

/-- A final state (R274). It says nothing of the I2C bus. -/
def isFinal (s : State) : Bool :=
  s.fault == none && s.lock == .free && s.phase == .idle && s.irqMask == false && s.req.all slotAtRest

/-! ### Runs of given turns -/

/-- The steps of the given turns, one after another. -/
def runTurns (s : State) (ts : List Turn) : Result := Host.Core.run core ts.length { s with turns := ts }

/-- Turns of the sequencer alone, its register reads answered with `vs` in order (a phase that reads nothing ignores its
answer), the input levels as they are. -/
def sequencerTurns (s : State) (vs : List Word) : List Turn := vs.map fun v => s.turnFor (.sequencer v)

/-- The steps of the sequencer alone. -/
def runSequencer (s : State) (vs : List Word) : Result := runTurns s (sequencerTurns s vs)

/-! ### The brackets of the history -/

/-- What the history says of the lock after one more event; none where the event may not stand there: an access or a
mask event outside a lock interval, a second acquisition, a release by another than the holder (R73, R77). -/
def lockAfter (l : Option Lock) (e : Event) : Option Lock :=
  match l with
  | none => none
  | some l =>
    match e with
    | .lockAcq r => if l = .free then some (.held r) else none
    | .lockRel r => if l = .held r then some .free else none
    | .regRead _ _ => if l = .free then none else some l
    | .regWrite _ _ => if l = .free then none else some l
    | .cMemRead _ _ _ => if l = .free then none else some l
    | .cMemWrite _ _ _ => if l = .free then none else some l
    | .maskSet => if l = .free then none else some l
    | .maskRestore _ => if l = .free then none else some l
    | .dispatch _ _ => some l
    | .post _ => some l
    | .lineDisable _ => some l
    | .complete _ _ => some l
    | .fault _ => some l

/-- The lock as the history gives it. -/
def lockTrace (h : List Event) : Option Lock := h.foldl lockAfter (some .free)

/-- What the history says of the interrupt mask after one more event; none where a handler's event stands inside the mask
bracket (R242, R283). -/
def maskAfter (m : Option Bool) (e : Event) : Option Bool :=
  match m with
  | none => none
  | some m =>
    match e with
    | .maskSet => some true
    | .maskRestore b => some b
    | .post _ => if m then none else some m
    | .lineDisable _ => if m then none else some m
    | .regRead _ _ => some m
    | .regWrite _ _ => some m
    | .cMemRead _ _ _ => some m
    | .cMemWrite _ _ _ => some m
    | .dispatch _ _ => some m
    | .lockAcq _ => some m
    | .lockRel _ => some m
    | .complete _ _ => some m
    | .fault _ => some m

/-- The interrupt mask as the history gives it. -/
def maskTrace (h : List Event) : Option Bool := h.foldl maskAfter (some false)

/-! ### The phases in groups -/

/-- The phases in which a message of a transfer is still under way (R163 to R177). -/
def inMessage : Phase → Bool
  | .txFetch | .txStart | .txStartSt | .txAddr | .txAddrSt | .txAddrClr | .txData
  | .txRdByte | .txWrPoll | .txWrByte | .txNext => true
  | .idle | .sfRdCr1 | .sfDisable | .sfWrCcr | .sfWrTrise | .sfRestore | .sfrRdCr1 | .sfrDisable | .sfrRestore
  | .opWrCr2 | .opRdCr1 | .opEnable | .clRdCr1 | .clDisable | .txStop | .txDone => false

/-- The phases of a transfer (R22). -/
def inTransfer (ph : Phase) : Bool := inMessage ph || ph == .txStop || ph == .txDone

/-- The byte loop of a write message (R170 to R175). -/
def inWriteLoop (ph : Phase) : Bool := ph == .txWrPoll || ph == .txWrByte

/-- The command code whose phase this is, `OPEN` being told from `SET_FREQUENCY` by `x[RET]` (R202). -/
def codeOf (ph : Phase) (ret : Ret) : Option Word :=
  match ph with
  | .idle => none
  | .sfRdCr1 | .sfDisable | .sfWrCcr | .sfWrTrise | .sfRestore =>
    match ret with
    | .ioctl => some 4
    | .opening => some 1
  | .sfrRdCr1 | .sfrDisable | .sfrRestore => some 4
  | .opWrCr2 | .opRdCr1 | .opEnable => some 1
  | .clRdCr1 | .clDisable => some 2
  | .txFetch | .txStart | .txStartSt | .txAddr | .txAddrSt | .txAddrClr | .txData
  | .txRdByte | .txWrPoll | .txWrByte | .txNext | .txStop | .txDone => some 3

/-! ### The invariant -/

/-- The lock and the ports (R22, R23, R25, R29). -/
structure LockInv (s : State) : Prop where
  /-- `phase = IDLE` exactly when `lock = Free` (R22). -/
  idleIffFree : s.phase = .idle ↔ s.lock = .free
  /-- The holder is the owner, its slot is `Running`, and the device is open. -/
  holder : ∀ r, s.lock = .held r → s.x.owner = r ∧ s.slot r = .running ∧ s.dev = .opened
  /-- Only the holder is `Running` (R29). -/
  runningHolds : ∀ r, s.slot r = .running → s.lock = .held r
  /-- While closed nothing awaits the lock (R25). -/
  closedIdle : s.dev = .closed → anyWaiting s = false
  /-- There are `NREQ` ports (R29). -/
  ports : s.req.length = s.cfg.nreq

/-- Commands wait only with operands their start can use (R131, R161). -/
def WaitInv (s : State) : Prop :=
  ∀ r code a0 a1, s.slot r = .waitLock code a0 a1 →
    (code = 3 ∧ a1 ≠ 0) ∨
    (code = 4 ∧ a0 ≠ 0 ∧ (overCeiling s.cfg a0 = true → s.cfg.rejectTouchesCr1 = true))

/-- The working registers of the running command (R21, R22, R133 to R136, R163, R176). -/
structure WorkInv (s : State) : Prop where
  /-- `x[OP]` is the running command's code. -/
  op : ∀ code, codeOf s.phase s.x.ret = some code → s.x.op = code
  /-- The set-frequency routine runs on a frequency in range (R131, R206). -/
  hz : s.phase = .sfRdCr1 ∨ s.phase = .sfDisable →
    s.x.hz ≠ 0 ∧ overCeiling s.cfg s.x.hz = false
  /-- The rejection that touches CR1 runs only on a frequency above the ceiling, under its parameter (R138). -/
  rejection : s.phase = .sfrRdCr1 ∨ s.phase = .sfrDisable ∨ s.phase = .sfrRestore →
    overCeiling s.cfg s.x.hz = true ∧ s.cfg.rejectTouchesCr1 = true
  /-- From `SF_DISABLE` on the computed values are those of `x[HZ]` (R133 to R136). -/
  timing : s.phase = .sfWrCcr ∨ s.phase = .sfWrTrise →
    s.x.hz ≠ 0 ∧ overCeiling s.cfg s.x.hz = false ∧ computeTiming s.cfg s.x = s.x
  /-- `x[MI] < x[CNT]` in every message (R22, R163). -/
  message : inMessage s.phase = true → s.x.mi < s.x.cnt ∧ s.x.err = .ok
  /-- A transfer ends with success, a bus error or a timeout (60_exceptions.md R230, R233, R234). -/
  error : inTransfer s.phase = true → s.x.err = .ok ∨ s.x.err = .ebus ∨ s.x.err = .etimedout
  /-- `x[BI] < x[LEN]` in the byte loops (R22, R176). -/
  byte : s.phase = .txRdByte ∨ inWriteLoop s.phase = true → s.x.bi < s.x.len
  /-- The byte loops go the message's way (R171, R172). -/
  direction : (s.phase = .txRdByte → s.x.rd = 1) ∧ (inWriteLoop s.phase = true → s.x.rd = 0)
  /-- The bounded wait has polls left (R172). -/
  polls : s.phase = .txWrPoll → ∀ n, s.cfg.txePollLimit = some n → s.x.polls < n

/-- The mask holds in the write loop and nowhere else (R27, R170, R175, R242). -/
structure MaskInv (s : State) : Prop where
  mask : s.irqMask = inWriteLoop s.phase
  saved : inWriteLoop s.phase = true → s.x.irqSaved = false

/-- `ETIMEDOUT` exists only with a finite limit (R234). -/
def TimeoutInv (s : State) : Prop :=
  s.cfg.txePollLimit = none →
    (inTransfer s.phase = true → s.x.err ≠ .etimedout) ∧ ∀ r, s.slot r ≠ .done .etimedout

/-- The history agrees with the state (R30, R73, R242). -/
structure TraceInv (s : State) : Prop where
  lock : lockTrace s.history = some s.lock
  mask : maskTrace s.history = some s.irqMask

/-- The invariant of the machine. -/
structure Inv (s : State) : Prop where
  lock : LockInv s
  wait : WaitInv s
  work : WorkInv s
  mask : MaskInv s
  timeout : TimeoutInv s
  trace : TraceInv s
  memory : s.cmem.wf = true

/-! ### What a phase still needs of the working registers (R21) -/

/-- `v` where `live`, else the value at reset. -/
def keep {α : Type} (live : Bool) (v d : α) : α := if live then v else d

/-- The phases before `TX_DATA` has used `x[RD]`. -/
def beforeData : Phase → Bool
  | .txStart | .txStartSt | .txAddr | .txAddrSt | .txAddrClr | .txData => true
  | .idle | .sfRdCr1 | .sfDisable | .sfWrCcr | .sfWrTrise | .sfRestore | .sfrRdCr1 | .sfrDisable | .sfrRestore
  | .opWrCr2 | .opRdCr1 | .opEnable | .clRdCr1 | .clDisable | .txFetch | .txRdByte | .txWrPoll | .txWrByte
  | .txNext | .txStop | .txDone => false

/-- The byte loops. -/
def inByteLoop (ph : Phase) : Bool := ph == .txRdByte || inWriteLoop ph

/-- The working registers with those that no rule reads before writing, from phase `ph` on, set to their reset value:
what R21 says no rule depends on. -/
def neededRegs (ph : Phase) (x : Regs) : Regs where
  owner := keep (ph != .idle) x.owner Regs.reset.owner
  op := keep (ph != .idle) x.op Regs.reset.op
  ret := keep (ph == .sfRdCr1 || ph == .sfDisable || ph == .sfWrCcr || ph == .sfWrTrise || ph == .sfRestore)
    x.ret Regs.reset.ret
  hz := keep (ph == .sfRdCr1 || ph == .sfDisable) x.hz Regs.reset.hz
  fast := keep (ph == .sfWrCcr) x.fast Regs.reset.fast
  div := keep (ph == .sfWrCcr) x.div Regs.reset.div
  tr := keep (ph == .sfWrCcr || ph == .sfWrTrise) x.tr Regs.reset.tr
  old := keep (ph == .sfDisable || ph == .sfWrCcr || ph == .sfWrTrise || ph == .sfRestore || ph == .sfrDisable
    || ph == .sfrRestore) x.old Regs.reset.old
  tmp := keep (ph == .opEnable || ph == .clDisable) x.tmp Regs.reset.tmp
  msgs := keep (inMessage ph) x.msgs Regs.reset.msgs
  cnt := keep (inMessage ph) x.cnt Regs.reset.cnt
  mi := keep (inMessage ph) x.mi Regs.reset.mi
  bi := keep (inByteLoop ph) x.bi Regs.reset.bi
  addr := keep (ph == .txStart || ph == .txStartSt || ph == .txAddr) x.addr Regs.reset.addr
  rd := keep (beforeData ph) x.rd Regs.reset.rd
  len := keep (beforeData ph || inByteLoop ph) x.len Regs.reset.len
  buf := keep (beforeData ph || inByteLoop ph) x.buf Regs.reset.buf
  sr := Regs.reset.sr
  err := keep (inTransfer ph) x.err Regs.reset.err
  polls := keep (ph == .txWrPoll) x.polls Regs.reset.polls
  irqSaved := keep (inWriteLoop ph) x.irqSaved Regs.reset.irqSaved

/-- The state with the working registers its phase no longer needs set to their reset value. -/
def needed (s : State) : State := s.setX (neededRegs s.phase s.x)

/-- The answers agree up to working registers that are not needed. -/
def neededResult : Result → Result
  | .next s => .next (needed s)
  | .fault f => .fault f
  | .refused r => .refused r

end Sys2Proof.Safety
end

