-- ==== Sys2Proof/Certificates/Slice0/Obligations.lean ====
section
/-! DEFINITION. The statements for the provers. `s.halted = none` says that no fault is marked and no parameter constraint is
broken (00_scope.md R15, 60_exceptions.md R245, R246): every rule's own premise. -/

open Sys2Proof Sys2Proof.Machine Sys2Proof.Safety

/-! ### Encoding -/

/-- Decoding the bytes of a well-formed instruction gives it back, every operand at every value; a micro-operation in the
context of a phase that issues its row (30_encoding.md R100 to R114; the byte layout is the model's, log 14). -/
def Obligations.DecodeOfEncodedBytesIsTheInstruction : Prop :=
  ∀ (p : Params) (ph : Phase) (i : Instr), i.wellFormed p = true → (i.row = none ∨ phaseRow ph = i.row) →
    decode p (some ph) (encode p i).toBytes = .ok i

/-- Without a context, the tuple alone names the row of every micro-operation but CR1_RESTORE and WDATA; a word of
CR1_DISABLE or CR1_ENABLE must not be the start or the stop word (R114; the choice is the model's, log 13). -/
def Obligations.MonitorNamesTheRowFromTheTuple : Prop :=
  ∀ (p : Params) (i : Instr) (row : MicroRow), paramsOk p = true → i.wellFormed p = true → i.row = some row →
    row ≠ .cr1Restore → row ≠ .wdata →
    (∀ v, (i = .uopCr1Disable v ∨ i = .uopCr1Enable v) → v ≠ startWord p ∧ v ≠ stopWord p) →
    decode p none (encode p i).toBytes = .ok i

/-- Words written out from R103 and R114 decode to their instructions: the four codes, the all-zero word, the start
and stop tuples, an address tuple (0x50, read), and the rest of the tuples a monitor can name; and the status words
of R106. The rows a CR1 write and a DR write are read as (here CR1_DISABLE, CR1_ENABLE, ADDR) are the model's choice
(log 13), as are the layout of the words (log 14) and the default masks (log 4, PRESUMED). -/
def Obligations.WordsOfTheTableDecode : Prop :=
  decodeTableWord 32 0x00000001 = some (.cmdOpen 0 0) ∧
  decodeTableWord 32 0x00000002 = some (.cmdClose 0 0) ∧
  decodeTableWord 32 0x00000003 = some (.cmdExecuteTransfer 0 0) ∧
  decodeTableWord 32 0x00000004 = some (.cmdSetFrequency 0 0) ∧
  decodeTableWord 32 0x00000000 = some (.cmdUnrecognised 0 0 0) ∧
  decodeTableWord 48 0x10000000101 = some .uopStart ∧
  decodeTableWord 48 0x10000000201 = some .uopStop ∧
  decodeTableWord 48 0x10000000400 = some (.uopCr1Disable 0x400) ∧
  decodeTableWord 48 0x10000000401 = some (.uopCr1Enable 0x401) ∧
  decodeTableWord 48 0x00000000001 = some (.uopCr1Read 1) ∧
  decodeTableWord 48 0x1040000002A = some (.uopCr2Init 0x2A) ∧
  decodeTableWord 48 0x110000000A1 = some (.uopAddr 0x50 1) ∧
  decodeTableWord 48 0x010000012CD = some (.uopRdata 0x12CD) ∧
  decodeTableWord 48 0x01400000082 = some (.uopStatus 0x82) ∧
  decodeTableWord 48 0x01800000007 = some (.uopClraddr 7) ∧
  decodeTableWord 48 0x11C00008023 = some (.uopCcrSet 0x8023) ∧
  decodeTableWord 48 0x1200000000D = some (.uopTriseSet 0xD) ∧
  Status.toWord .ok = 0 ∧ Status.toWord .einval = 1 ∧ Status.toWord .enomem = 2 ∧ Status.toWord .ebus = 3 ∧
  Status.toWord .etimedout = 4

/-- A tuple decodes only with the direction and offset of a row of R114: writes at 0x00, 0x04, 0x10, 0x1C, 0x20, reads at
0x00, 0x10, 0x14, 0x18; and a CMD decodes to an unrecognised command exactly when its code is none of the four (R104). -/
def Obligations.OnlyTableEncodingsDecode : Prop :=
  (∀ (p : Params) (ctx : Option Phase) (op : RegOp) (i : Instr), decodeRegOp p ctx op = .ok i →
    (op.w = true → op.off = 0x00 ∨ op.off = 0x04 ∨ op.off = 0x10 ∨ op.off = 0x1C ∨ op.off = 0x20) ∧
    (op.w = false → op.off = 0x00 ∨ op.off = 0x10 ∨ op.off = 0x14 ∨ op.off = 0x18)) ∧
  (∀ code a0 a1 : Word,
    decodeCommand code a0 a1 = .cmdUnrecognised code a0 a1 ↔ code ≠ 1 ∧ code ≠ 2 ∧ code ≠ 3 ∧ code ≠ 4)

/-- A descriptor's words give back its attributes whatever the reserved bits of word 0 hold, and its words lie
little-endian in its bytes (R63, R105, R107). -/
def Obligations.DescriptorIgnoresReservedBits : Prop :=
  ∀ (d : Descriptor) (junk : Word), junk &&& 0x0001007F = 0 →
    Descriptor.ofWords (d.word0 ||| junk) d.len d.buf = d ∧
    (d.toBytes.length = 12 ∧ leNat (d.toBytes.take 4) = d.addr.toNat + 65536 * d.rd.toNat ∧
      leNat ((d.toBytes.drop 4).take 4) = d.len.toNat ∧ leNat (d.toBytes.drop 8) = d.buf.toNat)

/-! ### The commands: what the dispatch step does -/

/-- OPEN at dispatch, its four cases in order (42_device_surface.md R204). -/
def Obligations.OpenDispatchCases : Prop :=
  ∀ (s : State) (a0 a1 : Word), s.halted = none → s.slot s.port = .submitted 1 a0 a1 →
    (s.cfg.cfgAttached = false →
      exec (.cmdOpen a0 a1) s = .next { s with
        req := s.req.set s.port (.done .einval)
        history := s.history ++ [.dispatch s.port 1, .complete s.port .einval] }) ∧
    (s.cfg.cfgAttached = true → s.dev = .opened →
      exec (.cmdOpen a0 a1) s = .next { s with
        req := s.req.set s.port (.done .einval)
        history := s.history ++ [.dispatch s.port 1, .complete s.port .einval] }) ∧
    (s.cfg.cfgAttached = true → s.dev = .closed → s.allocOk = false →
      exec (.cmdOpen a0 a1) s = .next { s with
        req := s.req.set s.port (.done .enomem)
        history := s.history ++ [.dispatch s.port 1, .complete s.port .enomem] }) ∧
    (s.cfg.cfgAttached = true → s.dev = .closed → s.allocOk = true →
      exec (.cmdOpen a0 a1) s = .next { s with
        dev := .opened
        sig := 0
        lock := .held s.port
        x := { s.x with owner := s.port, op := 1 }
        req := s.req.set s.port .running
        phase := .opWrCr2
        history := s.history ++ [.dispatch s.port 1, .lockAcq s.port] })

/-- CLOSE at dispatch, its three cases in order (R209). -/
def Obligations.CloseDispatchCases : Prop :=
  ∀ (s : State) (a0 a1 : Word), s.halted = none → s.slot s.port = .submitted 2 a0 a1 →
    (s.dev = .closed →
      exec (.cmdClose a0 a1) s = .next { s with
        req := s.req.set s.port (.done .einval)
        history := s.history ++ [.dispatch s.port 2, .complete s.port .einval] }) ∧
    (s.dev = .opened → (s.lock ≠ .free ∨ ∃ q code b0 b1, q ≠ s.port ∧ s.slot q = .waitLock code b0 b1) →
      exec (.cmdClose a0 a1) s = .next { s with
        fault := some .closeWhileBusy
        history := s.history ++ [.dispatch s.port 2, .fault .closeWhileBusy] }) ∧
    (s.dev = .opened → s.lock = .free → (∀ q code b0 b1, q ≠ s.port → s.slot q ≠ .waitLock code b0 b1) →
      exec (.cmdClose a0 a1) s = .next { s with
        lock := .held s.port
        x := { s.x with owner := s.port, op := 2 }
        req := s.req.set s.port .running
        phase := .clRdCr1
        history := s.history ++ [.dispatch s.port 2, .lockAcq s.port] })

/-- EXECUTE_TRANSFER at dispatch, its three cases in order (41_transfer_engine.md R161). -/
def Obligations.TransferDispatchCases : Prop :=
  ∀ (s : State) (messages count : Word), s.halted = none → s.slot s.port = .submitted 3 messages count →
    (s.dev = .closed →
      exec (.cmdExecuteTransfer messages count) s = .next { s with
        req := s.req.set s.port (.done .einval)
        history := s.history ++ [.dispatch s.port 3, .complete s.port .einval] }) ∧
    (s.dev = .opened → count = 0 →
      exec (.cmdExecuteTransfer messages count) s = .next { s with
        req := s.req.set s.port (.done .ok)
        history := s.history ++ [.dispatch s.port 3, .complete s.port .ok] }) ∧
    (s.dev = .opened → count ≠ 0 →
      exec (.cmdExecuteTransfer messages count) s = .next { s with
        req := s.req.set s.port (.waitLock 3 messages count)
        history := s.history ++ [.dispatch s.port 3] })

/-- SET_FREQUENCY at dispatch, the checks in order (40_timing_configurator.md R131, R132, R139). -/
def Obligations.SetFrequencyDispatchCases : Prop :=
  ∀ (s : State) (hz a1 : Word), s.halted = none → s.slot s.port = .submitted 4 hz a1 →
    (s.dev = .closed →
      exec (.cmdSetFrequency hz a1) s = .next { s with
        req := s.req.set s.port (.done .einval)
        history := s.history ++ [.dispatch s.port 4, .complete s.port .einval] }) ∧
    (s.dev = .opened → hz.toNat > s.cfg.fastMaxHz.toNat → s.cfg.rejectTouchesCr1 = false →
      exec (.cmdSetFrequency hz a1) s = .next { s with
        req := s.req.set s.port (.done .einval)
        history := s.history ++ [.dispatch s.port 4, .complete s.port .einval] }) ∧
    (s.dev = .opened → hz.toNat > s.cfg.fastMaxHz.toNat → s.cfg.rejectTouchesCr1 = true →
      exec (.cmdSetFrequency hz a1) s = .next { s with
        req := s.req.set s.port (.waitLock 4 hz a1)
        history := s.history ++ [.dispatch s.port 4] }) ∧
    (s.dev = .opened → hz = 0 →
      exec (.cmdSetFrequency hz a1) s = .next { s with
        fault := some .setFreqZeroHz
        history := s.history ++ [.dispatch s.port 4, .fault .setFreqZeroHz] }) ∧
    (s.dev = .opened → hz ≠ 0 → hz.toNat ≤ s.cfg.fastMaxHz.toNat →
      exec (.cmdSetFrequency hz a1) s = .next { s with
        req := s.req.set s.port (.waitLock 4 hz a1)
        history := s.history ++ [.dispatch s.port 4] })

/-- An unrecognised command completes with EINVAL in either device state and does nothing else (R104, R212). -/
def Obligations.UnrecognisedCommandCompletesEinval : Prop :=
  ∀ (s : State) (code a0 a1 : Word), s.halted = none → s.slot s.port = .submitted code a0 a1 →
    code ≠ 1 → code ≠ 2 → code ≠ 3 → code ≠ 4 →
    exec (.cmdUnrecognised code a0 a1) s = .next { s with
      req := s.req.set s.port (.done .einval)
      history := s.history ++ [.dispatch s.port code, .complete s.port .einval] }

/-! ### The commands: whole runs -/

/-- OPEN from dispatch to completion: the eight register accesses of R203 in order, then OK (R203 to R208, with the
set-frequency routine on the standard ceiling). `c1` and `c2` are the peripheral's two answers to the CR1 reads. -/
def Obligations.OpenRunsToCompletion : Prop :=
  ∀ (s : State) (a0 a1 c1 c2 : Word), s.halted = none → s.slot s.port = .submitted 1 a0 a1 →
    s.cfg.cfgAttached = true → s.dev = .closed → s.allocOk = true →
    ∃ t u, exec (.cmdOpen a0 a1) s = .next t ∧ runSequencer t [0, c1, 0, 0, 0, 0, c2, 0] = .next u ∧
      u.slot s.port = .done .ok ∧ u.dev = .opened ∧ u.lock = .free ∧ u.phase = .idle ∧ u.sig = 0 ∧
      u.history = s.history ++
        [.dispatch s.port 1, .lockAcq s.port,
          .regWrite 0x04 s.cfg.cr2InitWord,
          .regRead 0x00 c1, .regWrite 0x00 (c1 &&& ~~~s.cfg.cr1Pe),
          .regWrite 0x1C (s.cfg.inputClockHz / (s.cfg.stdMaxHz * 3)),
          .regWrite 0x20 (s.cfg.inputClockHz / s.cfg.stdTimeConst + 1),
          .regWrite 0x00 c1,
          .regRead 0x00 c2, .regWrite 0x00 (c2 ||| s.cfg.cr1Pe),
          .lockRel s.port, .complete s.port .ok]

/-- CLOSE from dispatch to completion (R209 to R211). -/
def Obligations.CloseRunsToCompletion : Prop :=
  ∀ (s : State) (a0 a1 c : Word), s.halted = none → s.slot s.port = .submitted 2 a0 a1 →
    s.dev = .opened → s.lock = .free → (∀ q code b0 b1, s.slot q ≠ .waitLock code b0 b1) →
    ∃ t u, exec (.cmdClose a0 a1) s = .next t ∧ runSequencer t [c, 0] = .next u ∧
      u.slot s.port = .done .ok ∧ u.dev = .closed ∧ u.lock = .free ∧ u.phase = .idle ∧
      u.history = s.history ++
        [.dispatch s.port 2, .lockAcq s.port, .regRead 0x00 c, .regWrite 0x00 (c &&& ~~~s.cfg.cr1Pe),
          .lockRel s.port, .complete s.port .ok]

/-- SET_FREQUENCY from dispatch to completion, the lock free: the five register accesses of R130 in order with the
words of R133 to R135 and R110, then OK. -/
def Obligations.SetFrequencyRunsToCompletion : Prop :=
  ∀ (s : State) (hz a1 c : Word), s.halted = none → s.slot s.port = .submitted 4 hz a1 →
    s.dev = .opened → s.lock = .free → hz ≠ 0 → hz.toNat ≤ s.cfg.fastMaxHz.toNat →
    ∃ t u, exec (.cmdSetFrequency hz a1) s = .next t ∧
      runTurns t (t.turnFor (.acquire s.port) :: sequencerTurns t [c, 0, 0, 0, 0]) = .next u ∧
      u.slot s.port = .done .ok ∧ u.lock = .free ∧ u.phase = .idle ∧
      u.history = s.history ++
        [.dispatch s.port 4, .lockAcq s.port,
          .regRead 0x00 c, .regWrite 0x00 (c &&& ~~~s.cfg.cr1Pe),
          .regWrite 0x1C
            ((if hz.toNat > s.cfg.stdMaxHz.toNat then s.cfg.ccrFs else 0) ||| s.cfg.inputClockHz / (hz * 3)),
          .regWrite 0x20
            (s.cfg.inputClockHz / (if hz.toNat > s.cfg.stdMaxHz.toNat then s.cfg.fastTimeConst else s.cfg.stdTimeConst)
              + 1),
          .regWrite 0x00 c,
          .lockRel s.port, .complete s.port .ok]

/-- The rejection that touches CR1, from dispatch to completion (R138): CR1 read, disabled, restored; EINVAL. -/
def Obligations.RejectedFrequencyRestoresCr1 : Prop :=
  ∀ (s : State) (hz a1 c : Word), s.halted = none → s.slot s.port = .submitted 4 hz a1 →
    s.dev = .opened → s.lock = .free → hz.toNat > s.cfg.fastMaxHz.toNat → s.cfg.rejectTouchesCr1 = true →
    ∃ t u, exec (.cmdSetFrequency hz a1) s = .next t ∧
      runTurns t (t.turnFor (.acquire s.port) :: sequencerTurns t [c, 0, 0]) = .next u ∧
      u.slot s.port = .done .einval ∧ u.lock = .free ∧ u.phase = .idle ∧
      u.history = s.history ++
        [.dispatch s.port 4, .lockAcq s.port,
          .regRead 0x00 c, .regWrite 0x00 (c &&& ~~~s.cfg.cr1Pe), .regWrite 0x00 c,
          .lockRel s.port, .complete s.port .einval]

/-- EXECUTE_TRANSFER of one zero-length write message, from dispatch to completion (R182 (b)): start, address and stop
with no data write; OK. `e1`, `e2` are the two status words, `w0` and `w2` descriptor words of any other content. -/
def Obligations.ZeroLengthWriteRunsToCompletion : Prop :=
  ∀ (s : State) (messages w0 w2 e1 e2 e3 : Word), s.halted = none → s.slot s.port = .submitted 3 messages 1 →
    s.dev = .opened → s.lock = .free → s.irqMask = false → messages &&& 3 = 0 →
    (s.setX { s.x with owner := s.port }).cmemWord messages = some w0 → w0.extractLsb' 16 1 = 0 →
    (s.setX { s.x with owner := s.port }).cmemWord (messages + 4) = some 0 →
    (s.setX { s.x with owner := s.port }).cmemWord (messages + 8) = some w2 →
    e1 &&& errMask s.cfg = 0 → e2 &&& errMask s.cfg = 0 →
    ∃ t u, exec (.cmdExecuteTransfer messages 1) s = .next t ∧
      runTurns t (t.turnFor (.acquire s.port) :: sequencerTurns t [0, 0, e1, 0, e2, e3, 0, 0, 0, 0]) = .next u ∧
      u.slot s.port = .done .ok ∧ u.lock = .free ∧ u.phase = .idle ∧ u.irqMask = false ∧
      u.history = s.history ++
        [.dispatch s.port 3, .lockAcq s.port,
          .cMemRead messages 4 w0, .cMemRead (messages + 4) 4 0, .cMemRead (messages + 8) 4 w2,
          .regWrite 0x00 (s.cfg.cr1Start ||| s.cfg.cr1Pe), .regRead 0x14 e1,
          .regWrite 0x10 (addressWord (w0.extractLsb' 0 7) 0), .regRead 0x14 e2, .regRead 0x18 e3,
          .maskSet, .maskRestore false,
          .regWrite 0x00 (s.cfg.cr1Stop ||| s.cfg.cr1Pe),
          .lockRel s.port, .complete s.port .ok]

/-- An error bit in the first status read of a transfer: the stop is written, EBUS is returned, SR1 is latched (R182 (d),
R236, R239). -/
def Obligations.ErrorAfterStartStopsWithEbus : Prop :=
  ∀ (s : State) (e : Word), s.halted = none → s.phase = .txStart → s.x.err = .ok → s.x.owner < s.req.length →
    e &&& errMask s.cfg ≠ 0 →
    ∃ u, runSequencer s [0, e, 0, 0] = .next u ∧
      u.slot s.x.owner = .done .ebus ∧ u.errSr1 = e ∧ u.lock = .free ∧ u.phase = .idle ∧ u.cmem = s.cmem ∧
      u.history = s.history ++
        [.regWrite 0x00 (s.cfg.cr1Start ||| s.cfg.cr1Pe), .regRead 0x14 e,
          .regWrite 0x00 (s.cfg.cr1Stop ||| s.cfg.cr1Pe),
          .lockRel s.x.owner, .complete s.x.owner .ebus]

/-! ### The micro-operations: result, and with it everything else unchanged -/

/-- CR1_READ in its four phases, for every answer (R141, R207, R210, R138). -/
def Obligations.Cr1ReadKeepsTheValue : Prop :=
  ∀ (s : State) (v : Word), s.halted = none →
    (s.phase = .sfRdCr1 →
      exec (.uopCr1Read v) s = .next { s with
        x := { s.x with old := v }, phase := .sfDisable, history := s.history ++ [.regRead 0x00 v] }) ∧
    (s.phase = .sfrRdCr1 →
      exec (.uopCr1Read v) s = .next { s with
        x := { s.x with old := v }, phase := .sfrDisable, history := s.history ++ [.regRead 0x00 v] }) ∧
    (s.phase = .opRdCr1 →
      exec (.uopCr1Read v) s = .next { s with
        x := { s.x with tmp := v }, phase := .opEnable, history := s.history ++ [.regRead 0x00 v] }) ∧
    (s.phase = .clRdCr1 →
      exec (.uopCr1Read v) s = .next { s with
        x := { s.x with tmp := v }, phase := .clDisable, history := s.history ++ [.regRead 0x00 v] })

/-- CR1_DISABLE in SF_DISABLE: the enable bit cleared, and FAST, DIV, TR computed by truncating division in the same step,
for every frequency the routine runs on (R142, R133, R134, R135). -/
def Obligations.SfDisableComputesTheTiming : Prop :=
  ∀ s : State, s.halted = none → s.phase = .sfDisable → s.x.hz ≠ 0 → s.x.hz.toNat ≤ s.cfg.fastMaxHz.toNat →
    ∃ t, exec (.uopCr1Disable (s.x.old &&& ~~~s.cfg.cr1Pe)) s = .next t ∧
      t.x.fast = decide (s.x.hz.toNat > s.cfg.stdMaxHz.toNat) ∧
      t.x.div.toNat = s.cfg.inputClockHz.toNat / (s.x.hz.toNat * 3) ∧
      t.x.tr.toNat =
        (s.cfg.inputClockHz.toNat /
          (if s.x.hz.toNat > s.cfg.stdMaxHz.toNat then s.cfg.fastTimeConst.toNat else s.cfg.stdTimeConst.toNat)
          + 1) % 2 ^ 32 ∧
      t = { s with
        x := { s.x with fast := t.x.fast, div := t.x.div, tr := t.x.tr }
        phase := .sfWrCcr
        history := s.history ++ [.regWrite 0x00 (s.x.old &&& ~~~s.cfg.cr1Pe)] }

/-- CR1_DISABLE in SFR_DISABLE and in CL_DISABLE, where the device closes or, if a command came to wait, the machine
faults (R138, R211). -/
def Obligations.Cr1DisableOfRejectionAndClose : Prop :=
  ∀ s : State, s.halted = none →
    (s.phase = .sfrDisable →
      exec (.uopCr1Disable (s.x.old &&& ~~~s.cfg.cr1Pe)) s = .next { s with
        phase := .sfrRestore
        history := s.history ++ [.regWrite 0x00 (s.x.old &&& ~~~s.cfg.cr1Pe)] }) ∧
    (s.phase = .clDisable → (∀ q code b0 b1, s.slot q ≠ .waitLock code b0 b1) →
      exec (.uopCr1Disable (s.x.tmp &&& ~~~s.cfg.cr1Pe)) s = .next { s with
        dev := .closed
        lock := .free
        phase := .idle
        req := s.req.set s.x.owner (.done .ok)
        history := s.history ++
          [.regWrite 0x00 (s.x.tmp &&& ~~~s.cfg.cr1Pe), .lockRel s.x.owner, .complete s.x.owner .ok] }) ∧
    (s.phase = .clDisable → (∃ q code b0 b1, s.slot q = .waitLock code b0 b1) →
      exec (.uopCr1Disable (s.x.tmp &&& ~~~s.cfg.cr1Pe)) s = .next { s with
        fault := some .closeWhileBusy
        history := s.history ++ [.regWrite 0x00 (s.x.tmp &&& ~~~s.cfg.cr1Pe), .fault .closeWhileBusy] })

/-- CR1_RESTORE: the saved word whole; then the command ends, or OPEN goes on with the lock (R145, R138). -/
def Obligations.Cr1RestoreWritesTheSavedWord : Prop :=
  ∀ s : State, s.halted = none →
    (s.phase = .sfRestore → s.x.ret = .ioctl →
      exec (.uopCr1Restore s.x.old) s = .next { s with
        lock := .free
        phase := .idle
        req := s.req.set s.x.owner (.done .ok)
        history := s.history ++ [.regWrite 0x00 s.x.old, .lockRel s.x.owner, .complete s.x.owner .ok] }) ∧
    (s.phase = .sfRestore → s.x.ret = .opening →
      exec (.uopCr1Restore s.x.old) s = .next { s with
        phase := .opRdCr1, history := s.history ++ [.regWrite 0x00 s.x.old] }) ∧
    (s.phase = .sfrRestore →
      exec (.uopCr1Restore s.x.old) s = .next { s with
        lock := .free
        phase := .idle
        req := s.req.set s.x.owner (.done .einval)
        history := s.history ++ [.regWrite 0x00 s.x.old, .lockRel s.x.owner, .complete s.x.owner .einval] })

/-- CR2_INIT starts the internal set-frequency call, CR1_ENABLE ends OPEN (R205, R206, R208). -/
def Obligations.OpenPhasesProgramAndEnable : Prop :=
  ∀ s : State, s.halted = none →
    (s.phase = .opWrCr2 →
      exec (.uopCr2Init s.cfg.cr2InitWord) s = .next { s with
        x := { s.x with hz := s.cfg.stdMaxHz, ret := .opening }
        phase := .sfRdCr1
        history := s.history ++ [.regWrite 0x04 s.cfg.cr2InitWord] }) ∧
    (s.phase = .opEnable →
      exec (.uopCr1Enable (s.x.tmp ||| s.cfg.cr1Pe)) s = .next { s with
        lock := .free
        phase := .idle
        req := s.req.set s.x.owner (.done .ok)
        history := s.history ++
          [.regWrite 0x00 (s.x.tmp ||| s.cfg.cr1Pe), .lockRel s.x.owner, .complete s.x.owner .ok] })

/-- CCR_SET writes the speed-grade bit OR the divider, unmasked, and TRISE_SET the rise-time value (R143, R144). -/
def Obligations.TimingRegistersWritten : Prop :=
  ∀ s : State, s.halted = none →
    (s.phase = .sfWrCcr →
      exec (.uopCcrSet ((if s.x.fast = true then s.cfg.ccrFs else 0) ||| s.x.div)) s = .next { s with
        phase := .sfWrTrise
        history := s.history ++ [.regWrite 0x1C ((if s.x.fast = true then s.cfg.ccrFs else 0) ||| s.x.div)] }) ∧
    (s.phase = .sfWrTrise →
      exec (.uopTriseSet s.x.tr) s = .next { s with
        phase := .sfRestore, history := s.history ++ [.regWrite 0x20 s.x.tr] })

/-- START and STOP write exactly their two bits, and CR1 is not read first (R165, R179). -/
def Obligations.StartAndStopWords : Prop :=
  ∀ s : State, s.halted = none →
    (s.phase = .txStart →
      exec .uopStart s = .next { s with
        phase := .txStartSt, history := s.history ++ [.regWrite 0x00 (s.cfg.cr1Start ||| s.cfg.cr1Pe)] }) ∧
    (s.phase = .txStop →
      exec .uopStop s = .next { s with
        phase := .txDone, history := s.history ++ [.regWrite 0x00 (s.cfg.cr1Stop ||| s.cfg.cr1Pe)] })

/-- ADDR writes the address byte, CLRADDR reads SR2 and discards it (R167, R169). -/
def Obligations.AddressPhaseAccesses : Prop :=
  ∀ s : State, s.halted = none →
    (s.phase = .txAddr →
      ∃ w : Word, w.toNat = 2 * s.x.addr.toNat + s.x.rd.toNat ∧
        exec (.uopAddr s.x.addr s.x.rd) s = .next { s with
          phase := .txAddrSt, history := s.history ++ [.regWrite 0x10 w] }) ∧
    (∀ v : Word, s.phase = .txAddrClr →
      exec (.uopClraddr v) s = .next { s with
        phase := .txData, history := s.history ++ [.regRead 0x18 v] })

/-- STATUS after start and after address: one read; any error bit aborts to the stop with EBUS and the word latched, else
the transfer goes on (R166, R168, R236, R40). -/
def Obligations.StatusReadsTestTheErrorMask : Prop :=
  ∀ (s : State) (v m : Word), s.halted = none →
    m = s.cfg.sr1Timeout ||| s.cfg.sr1Af ||| s.cfg.sr1Pecerr ||| s.cfg.sr1Ovr ||| s.cfg.sr1Arlo ||| s.cfg.sr1Berr →
    (s.phase = .txStartSt ∨ s.phase = .txAddrSt → v &&& m ≠ 0 →
      exec (.uopStatus v) s = .next { s with
        x := { s.x with sr := v, err := if s.x.err = .ok then .ebus else s.x.err }
        errSr1 := v
        phase := .txStop
        history := s.history ++ [.regRead 0x14 v] }) ∧
    (s.phase = .txStartSt → v &&& m = 0 →
      exec (.uopStatus v) s = .next { s with
        x := { s.x with sr := v }, phase := .txAddr, history := s.history ++ [.regRead 0x14 v] }) ∧
    (s.phase = .txAddrSt → v &&& m = 0 →
      exec (.uopStatus v) s = .next { s with
        x := { s.x with sr := v }, phase := .txAddrClr, history := s.history ++ [.regRead 0x14 v] })

/-- STATUS in the write loop: transmit-empty goes on to the byte; a finite bound reached restores the mask and aborts to
the stop with ETIMEDOUT; else the poll repeats, error bits ignored (R172, R173, R237). -/
def Obligations.PollTestsTransmitEmptyOnly : Prop :=
  ∀ (s : State) (v : Word), s.halted = none → s.phase = .txWrPoll →
    (v &&& s.cfg.sr1Txe ≠ 0 →
      exec (.uopStatus v) s = .next { s with
        x := { s.x with sr := v, polls := s.x.polls + 1 }
        phase := .txWrByte
        history := s.history ++ [.regRead 0x14 v] }) ∧
    (v &&& s.cfg.sr1Txe = 0 → (∃ n, s.cfg.txePollLimit = some n ∧ n ≤ s.x.polls + 1) →
      exec (.uopStatus v) s = .next { s with
        x := { s.x with sr := v, polls := s.x.polls + 1, err := if s.x.err = .ok then .etimedout else s.x.err }
        irqMask := s.x.irqSaved
        phase := .txStop
        history := s.history ++ [.regRead 0x14 v, .maskRestore s.x.irqSaved] }) ∧
    (v &&& s.cfg.sr1Txe = 0 → (∀ n, s.cfg.txePollLimit = some n → s.x.polls + 1 < n) →
      exec (.uopStatus v) s = .next { s with
        x := { s.x with sr := v, polls := s.x.polls + 1 }
        history := s.history ++ [.regRead 0x14 v] })

/-- RDATA: bits [7:0] of the word read go to the buffer at x[BUF] + x[BI] modulo 2^32 and every other byte of caller memory
reads as before; a store outside the regions lent is a
fault after the read (R171, R109). Which regions admit a store is the model's choice (log 8). -/
def Obligations.ReadByteGoesToTheBuffer : Prop :=
  ∀ (s : State) (v : Word), s.halted = none → s.phase = .txRdByte → s.cmem.wf = true →
    (s.admits (s.x.buf + s.x.bi).toNat 1 = true →
      ∃ t, exec (.uopRdata v) s = .next t ∧
        t.cmem.read (s.x.buf + s.x.bi).toNat = v.extractLsb' 0 8 ∧
        (∀ a, a ≠ (s.x.buf + s.x.bi).toNat → t.cmem.read a = s.cmem.read a) ∧
        t = { s with
          x := { s.x with bi := s.x.bi + 1 }
          phase := if (s.x.bi + 1).toNat < s.x.len.toNat then .txRdByte else .txNext
          cmem := t.cmem
          history := s.history ++
            [.regRead 0x10 v, .cMemWrite (s.x.buf + s.x.bi) 1 ((v.extractLsb' 0 8).zeroExtend 32)] }) ∧
    (s.admits (s.x.buf + s.x.bi).toNat 1 = false →
      exec (.uopRdata v) s = .next { s with
        fault := some .callerMemRefused
        history := s.history ++ [.regRead 0x10 v, .fault .callerMemRefused] })

/-- WDATA: the buffer byte goes to DR; after the last byte the mask is restored; a read outside the regions lent is
a fault with no event and no DR write, whatever the byte (R174, R175). Which regions admit a read is the model's choice
(log 8), and that a refused read leaves no event its inference (log 9). -/
def Obligations.WriteByteComesFromTheBuffer : Prop :=
  ∀ s : State, s.halted = none → s.phase = .txWrByte →
    (∀ b : Byte, s.admits (s.x.buf + s.x.bi).toNat 1 = true → s.cmem.read (s.x.buf + s.x.bi).toNat = b →
      (s.x.bi + 1).toNat < s.x.len.toNat →
      exec (.uopWdata b) s = .next { s with
        x := { s.x with bi := s.x.bi + 1, polls := 0 }
        phase := .txWrPoll
        history := s.history ++
          [.cMemRead (s.x.buf + s.x.bi) 1 (b.zeroExtend 32), .regWrite 0x10 (b.zeroExtend 32)] }) ∧
    (∀ b : Byte, s.admits (s.x.buf + s.x.bi).toNat 1 = true → s.cmem.read (s.x.buf + s.x.bi).toNat = b →
      s.x.len.toNat ≤ (s.x.bi + 1).toNat →
      exec (.uopWdata b) s = .next { s with
        x := { s.x with bi := s.x.bi + 1, polls := 0 }
        irqMask := s.x.irqSaved
        phase := .txNext
        history := s.history ++
          [.cMemRead (s.x.buf + s.x.bi) 1 (b.zeroExtend 32), .regWrite 0x10 (b.zeroExtend 32),
            .maskRestore s.x.irqSaved] }) ∧
    (∀ b : Byte, s.admits (s.x.buf + s.x.bi).toNat 1 = false →
      exec (.uopWdata b) s = .next { s with
        fault := some .callerMemRefused, history := s.history ++ [.fault .callerMemRefused] })

/-! ### The phases without a bus access -/

/-- TX_FETCH: three little-endian words of the descriptor in one step; a misaligned pointer or a refused word is a fault
(R163, R64, R107). -/
def Obligations.FetchLoadsTheDescriptor : Prop :=
  ∀ (s : State) (v a : Word), s.phase = .txFetch → a = s.x.msgs + 12 * s.x.mi →
    (∀ w0 w1 w2, s.x.msgs.toNat % 4 = 0 → s.cmemWord a = some w0 → s.cmemWord (a + 4) = some w1 →
      s.cmemWord (a + 8) = some w2 →
      sequencerStep v s = .next { s with
        x := { s.x with addr := w0.extractLsb' 0 7, rd := w0.extractLsb' 16 1, len := w1, buf := w2 }
        phase := .txStart
        history := s.history ++ [.cMemRead a 4 w0, .cMemRead (a + 4) 4 w1, .cMemRead (a + 8) 4 w2] }) ∧
    (s.fault = none →
      s.x.msgs.toNat % 4 ≠ 0 ∨ s.cmemWord a = none ∨ s.cmemWord (a + 4) = none ∨ s.cmemWord (a + 8) = none →
      ∃ t, sequencerStep v s = .next t ∧ t.fault = some .callerMemRefused ∧ t.x = s.x ∧ t.phase = .txFetch ∧
        t.cmem = s.cmem)

/-- A word of caller memory is its four bytes, the one at the lowest address in bits [7:0], where one lent region of the
lock's owner holds them all (20_memory.md R62, R63; one region for the whole word is the model's choice, log 8). -/
def Obligations.CallerWordsAreLittleEndian : Prop :=
  ∀ (s : State) (a w : Word),
    s.cmemWord a = some w ↔
      (∃ g ∈ s.lent, g.owner = s.x.owner ∧ g.base ≤ a.toNat ∧ a.toNat + 4 ≤ g.base + g.size) ∧
      w.toNat = (s.cmem.read a.toNat).toNat + 256 * (s.cmem.read (a.toNat + 1)).toNat
        + 65536 * (s.cmem.read (a.toNat + 2)).toNat + 16777216 * (s.cmem.read (a.toNat + 3)).toNat

/-- TX_DATA (R170): the byte index cleared; a read message goes to its bytes; a write message saves and sets the mask; a
message of length 0 goes on at once, a write with the mask set and restored in the step. -/
def Obligations.DataPhaseOpensTheLoop : Prop :=
  ∀ (s : State) (v : Word), s.phase = .txData →
    (s.x.rd = 1 →
      sequencerStep v s = .next { s with
        x := { s.x with bi := 0 }, phase := if s.x.len = 0 then .txNext else .txRdByte }) ∧
    (s.x.rd = 0 → s.x.len ≠ 0 →
      sequencerStep v s = .next { s with
        x := { s.x with bi := 0, irqSaved := s.irqMask, polls := 0 }
        irqMask := true
        phase := .txWrPoll
        history := s.history ++ [.maskSet] }) ∧
    (s.x.rd = 0 → s.x.len = 0 →
      sequencerStep v s = .next { s with
        x := { s.x with bi := 0, irqSaved := s.irqMask, polls := 0 }
        phase := .txNext
        history := s.history ++ [.maskSet, .maskRestore s.irqMask] })

/-- TX_NEXT goes to the next message without any access, or to the stop; TX_DONE releases and returns the first error or
success (R177, R180). -/
def Obligations.NextAndDonePhases : Prop :=
  ∀ (s : State) (v : Word),
    (s.phase = .txNext → (s.x.mi + 1).toNat < s.x.cnt.toNat →
      sequencerStep v s = .next { s with x := { s.x with mi := s.x.mi + 1 }, phase := .txFetch }) ∧
    (s.phase = .txNext → s.x.cnt.toNat ≤ (s.x.mi + 1).toNat →
      sequencerStep v s = .next { s with phase := .txStop }) ∧
    (s.phase = .txDone →
      sequencerStep v s = .next { s with
        lock := .free
        phase := .idle
        req := s.req.set s.x.owner (.done s.x.err)
        history := s.history ++ [.lockRel s.x.owner, .complete s.x.owner s.x.err] })

/-! ### The lock, the handlers, the requesters -/

/-- acquire takes the free lock of an open device for a waiting transfer or frequency change and loads its operands; while
the lock is held or the device closed a waiting requester has no step (R76, R162, R140), which here is a move that
changes nothing (the model's choice, log 2). -/
def Obligations.AcquireStartsTheWaitingCommand : Prop :=
  ∀ (s : State) (r : Nat) (a0 a1 : Word),
    (s.slot r = .waitLock 3 a0 a1 → s.lock = .free → s.dev = .opened →
      acquire r s = { s with
        lock := .held r
        x := { s.x with owner := r, op := 3, msgs := a0, cnt := a1, mi := 0, err := .ok }
        req := s.req.set r .running
        phase := .txFetch
        history := s.history ++ [.lockAcq r] }) ∧
    (s.slot r = .waitLock 4 a0 a1 → s.lock = .free → s.dev = .opened →
      acquire r s = { s with
        lock := .held r
        x := { s.x with owner := r, op := 4, hz := a0, ret := .ioctl }
        req := s.req.set r .running
        phase := if a0.toNat > s.cfg.fastMaxHz.toNat then .sfrRdCr1 else .sfRdCr1
        history := s.history ++ [.lockAcq r] }) ∧
    (s.lock ≠ .free ∨ s.dev = .closed → acquire r s = s)

/-- The two handlers (60_exceptions.md R240, R241, R242): enabled by their line, their enable bit and a clear mask; the
event handler disables its line; each posts once, saturating (R79); closed, each faults; otherwise no step, which here
is a move that changes nothing (the model's choice, log 2). -/
def Obligations.HandlersOnlySignal : Prop :=
  ∀ s : State, s.fault = none →
    (s.evtLine = true → s.evtEn = true → s.irqMask = false → s.dev = .opened →
      ∃ n : Word, n.toNat = min (s.sig.toNat + 1) (2 ^ 32 - 1) ∧
        evtHandler s = { s with
          evtEn := false, sig := n, history := s.history ++ [.lineDisable .evt, .post .evt] }) ∧
    (s.errLine = true → s.errEn = true → s.irqMask = false → s.dev = .opened →
      ∃ n : Word, n.toNat = min (s.sig.toNat + 1) (2 ^ 32 - 1) ∧
        errHandler s = { s with sig := n, history := s.history ++ [.post .err] }) ∧
    (s.evtLine = true → s.evtEn = true → s.irqMask = false → s.dev = .closed →
      evtHandler s = { s with
        fault := some .irqWhileClosed, history := s.history ++ [.fault .irqWhileClosed] }) ∧
    (s.errLine = true → s.errEn = true → s.irqMask = false → s.dev = .closed →
      errHandler s = { s with
        fault := some .irqWhileClosed, history := s.history ++ [.fault .irqWhileClosed] }) ∧
    (s.evtLine = false ∨ s.evtEn = false ∨ s.irqMask = true → evtHandler s = s) ∧
    (s.errLine = false ∨ s.errEn = false ∨ s.irqMask = true → errHandler s = s)

/-- A requester submits only from Idle and collects only when Done, and then is Idle again (10_state.md R29); both leave
the block's other state alone. The model's choices: the regions are lent with the command and taken back with the status
(log 8); a submit or collect that is not enabled (log 2), or that names a port that does not exist (log 28), changes
nothing. -/
def Obligations.RequestersSubmitAndCollect : Prop :=
  ∀ (s : State) (r : Nat) (code a0 a1 : Word) (regions : List (Nat × Nat)),
    (r < s.req.length → s.slot r = .idle →
      submit r code a0 a1 regions s = { s with
        req := s.req.set r (.submitted code a0 a1)
        lent := s.lent.filter (fun g => g.owner != r)
          ++ regions.map fun q => { owner := r, base := q.1, size := q.2 } }) ∧
    (s.slot r ≠ .idle → submit r code a0 a1 regions s = s) ∧
    (∀ st, s.slot r = .done st →
      collect r s = { s with req := s.req.set r .idle, lent := s.lent.filter fun g => g.owner != r }) ∧
    ((∀ st, s.slot r ≠ .done st) → collect r s = s) ∧
    (s.req.length ≤ r → submit r code a0 a1 regions s = s ∧ collect r s = s)

/-! ### The step -/

/-- When the dispatcher's turn comes and a port shows a command whose words decode to `i`, the step is `i` run in the state
with the turn taken and the port selected (42_device_surface.md R201). -/
def Obligations.StepRunsTheDecodedCommand : Prop :=
  ∀ (s : State) (r : Nat) (code a0 a1 : Word) (i : Instr), s.halted = none → s.turn.move = .dispatch r →
    s.slot r = .submitted code a0 a1 → decode s.cfg none (Raw.cmd code a0 a1).toBytes = .ok i →
    step s = exec i (s.takeTurn.withPort r)

/-- When the sequencer's turn comes and its phase issues a tuple, the tuple decodes in the context of the phase to an
instruction of the phase's row, and the step is that instruction run in the state with the turn taken (R16, R114). -/
def Obligations.StepRunsTheDecodedMicroOperation : Prop :=
  ∀ (s : State) (v : Word) (op : RegOp), s.halted = none → s.turn.move = .sequencer v → s.regOp v = some op →
    ∃ i, decodeRegOp s.cfg (some s.phase) op = .ok i ∧ i.row = phaseRow s.phase ∧ step s = exec i s.takeTurn

/-- A machine that is not stopped always has a next state: no instruction that step fetches is ever refused, and a fault is
answered exactly when one is marked or a parameter constraint is broken (how a fault is answered is the model's choice,
logs 10 to 12). -/
def Obligations.StepNeverRefuses : Prop :=
  ∀ s : State, (∀ r, step s ≠ .refused r) ∧ (s.halted = none → ∃ t, step s = .next t) ∧
    (∀ f, s.halted = some f → step s = .fault f)

/-- A fault is logged by the step that marks it, as its last event, and from then on no agent has a step (R245). -/
def Obligations.FaultIsStickyAndLogged : Prop :=
  (∀ s t : State, ∀ f, step s = .next t → t.fault = some f →
    (∃ es, t.history = s.history ++ es ++ [.fault f]) ∧ step t = .fault f) ∧
  (∀ (s : State) (f : Fault), s.fault = some f →
    step s = .fault f ∧ (∀ g, s.raiseFault g = s) ∧ ∀ i, exec i s = .fault f)

/-- A broken parameter constraint gives no run at all (R246), every constraint written out: no two masks of CR1, of CR2, of
SR1 or of CCR may overlap. -/
def Obligations.BrokenParametersHaveNoRun : Prop :=
  ∀ s : State, s.fault = none →
    (s.cfg.base.toNat % 4 ≠ 0 ∨ s.cfg.evtIrq = s.cfg.errIrq ∨ s.cfg.stdMaxHz = 0 ∨
      s.cfg.fastMaxHz.toNat < s.cfg.stdMaxHz.toNat ∨ 2 ^ 32 ≤ s.cfg.fastMaxHz.toNat * 3 ∨
      s.cfg.stdTimeConst = 0 ∨ s.cfg.fastTimeConst = 0 ∨ s.cfg.nreq = 0 ∨ s.cfg.txePollLimit = some 0 ∨
      s.cfg.useDuty = true ∨
      ¬ [s.cfg.cr1Pe, s.cfg.cr1Start, s.cfg.cr1Stop].Pairwise (fun m n => m &&& n = 0) ∨
      ¬ [s.cfg.cr2Freq, s.cfg.cr2Iterren, s.cfg.cr2Itevten, s.cfg.cr2Itbufen].Pairwise (fun m n => m &&& n = 0) ∨
      ¬ [s.cfg.sr1Sb, s.cfg.sr1Addr, s.cfg.sr1Btf, s.cfg.sr1Rxne, s.cfg.sr1Txe, s.cfg.sr1Berr, s.cfg.sr1Arlo,
          s.cfg.sr1Af, s.cfg.sr1Ovr, s.cfg.sr1Pecerr, s.cfg.sr1Timeout].Pairwise (fun m n => m &&& n = 0) ∨
      ¬ [s.cfg.ccrField, s.cfg.ccrFs, s.cfg.ccrDuty].Pairwise (fun m n => m &&& n = 0)) →
    step s = .fault .badParameters

/-! ### Frames -/

/-- What the five commands leave alone at dispatch: caller memory and the lent regions, the interrupt gates and the mask,
the SR1 latch, the inputs, the parameters, every other port; and every working register but OWNER and OP, which only OPEN
and CLOSE write, with the lock, the phase, and for OPEN the device state and the signal. -/
def Obligations.CommandsLeaveTheRestAlone : Prop :=
  ∀ (i : Instr) (s t : State), i.row = none → exec i s = .next t →
    (∀ a, t.cmem.read a = s.cmem.read a) ∧ t.lent = s.lent ∧ t.cfg = s.cfg ∧
    t.evtEn = s.evtEn ∧ t.errEn = s.errEn ∧ t.irqMask = s.irqMask ∧ t.errSr1 = s.errSr1 ∧
    t.evtLine = s.evtLine ∧ t.errLine = s.errLine ∧ t.allocOk = s.allocOk ∧
    t.port = s.port ∧ t.turns = s.turns ∧ t.tick = s.tick ∧
    (∀ q, q ≠ s.port → t.slot q = s.slot q) ∧
    t.x = { s.x with owner := t.x.owner, op := t.x.op } ∧
    ((∀ a0 a1, i ≠ .cmdOpen a0 a1 ∧ i ≠ .cmdClose a0 a1) →
      t.x = s.x ∧ t.lock = s.lock ∧ t.phase = s.phase) ∧
    ((∀ a0 a1, i ≠ .cmdOpen a0 a1) → t.dev = s.dev ∧ t.sig = s.sig)

/-- What the micro-operations leave alone: the parameters, the signal, the line enables, the inputs, the lent regions, every
port but the owner's; the device state but for CR1_DISABLE; the mask but for STATUS and WDATA; the SR1 latch but for
STATUS; and the working registers but those named for each row. Caller memory but for RDATA, which stores one byte at
x[BUF] + x[BI]. -/
def Obligations.MicroOperationsLeaveTheRestAlone : Prop :=
  ∀ (i : Instr) (row : MicroRow) (s t : State), i.row = some row → exec i s = .next t →
    (row ≠ .rdata → ∀ a, t.cmem.read a = s.cmem.read a) ∧
    (row = .rdata → ∀ a, a ≠ (byteAddress s.x).toNat → t.cmem.read a = s.cmem.read a) ∧
    t.lent = s.lent ∧ t.cfg = s.cfg ∧ t.sig = s.sig ∧ t.evtEn = s.evtEn ∧ t.errEn = s.errEn ∧
    t.evtLine = s.evtLine ∧ t.errLine = s.errLine ∧ t.allocOk = s.allocOk ∧
    t.port = s.port ∧ t.turns = s.turns ∧ t.tick = s.tick ∧
    (∀ q, q ≠ s.x.owner → t.slot q = s.slot q) ∧
    (row ≠ .cr1Disable → t.dev = s.dev) ∧
    (row ≠ .status → row ≠ .wdata → t.irqMask = s.irqMask) ∧
    (row ≠ .status → t.errSr1 = s.errSr1) ∧
    (row = .start ∨ row = .stop ∨ row = .addr ∨ row = .clraddr ∨ row = .ccrSet ∨ row = .triseSet ∨
      row = .cr1Restore ∨ row = .cr1Enable → t.x = s.x) ∧
    (row = .cr1Read → t.x = { s.x with old := t.x.old, tmp := t.x.tmp }) ∧
    (row = .cr1Disable → t.x = { s.x with fast := t.x.fast, div := t.x.div, tr := t.x.tr }) ∧
    (row = .cr2Init → t.x = { s.x with hz := t.x.hz, ret := t.x.ret }) ∧
    (row = .status → t.x = { s.x with sr := t.x.sr, polls := t.x.polls, err := t.x.err }) ∧
    (row = .wdata → t.x = { s.x with bi := t.x.bi, polls := t.x.polls }) ∧
    (row = .rdata → t.x = { s.x with bi := t.x.bi })

/-! ### Invariants and rules about the whole machine -/

/-- Every step keeps the invariant: the lock and its holder, the waiting commands, the working registers, the mask, the
brackets of the history, the canonical form of memory. -/
def Obligations.StepKeepsTheInvariant : Prop :=
  ∀ s t : State, Inv s → step s = .next t → Inv t

/-- The invariant holds at reset, for every parameter set and whatever the working registers hold, which R270 leaves
unspecified (70_reset_and_hazards.md R270). -/
def Obligations.InvariantHoldsAtReset : Prop := ∀ (p : Params) (x : Regs), Inv ((State.resetWith p).setX x)

/-- The state at reset, field by field as R270 gives it. -/
def Obligations.ResetValues : Prop :=
  ∀ p : Params, (State.resetWith p).dev = .closed ∧ (State.resetWith p).lock = .free ∧ (State.resetWith p).sig = 0 ∧
    (State.resetWith p).evtEn = true ∧ (State.resetWith p).errEn = true ∧ (State.resetWith p).irqMask = false ∧
    (State.resetWith p).fault = none ∧ (State.resetWith p).errSr1 = 0 ∧
    (∀ r, r < p.nreq → (State.resetWith p).req[r]? = some .idle) ∧ (State.resetWith p).req.length = p.nreq ∧
    (State.resetWith p).phase = .idle ∧ (State.resetWith p).history = []

/-- No rule reads a working register before writing it in the same command (10_state.md R21): with the registers the phase
no longer needs overwritten by their reset value, a step gives the same answer up to registers no longer needed. -/
def Obligations.NoRegisterReadBeforeWritten : Prop :=
  ∀ s : State, neededResult (step (needed s)) = neededResult (step s)

/-- The history only grows, the parameters and the number of ports never change, and neither line enable is ever set again
(R8, R27, R30); a step takes one turn and counts one (the model's own fields, log 1). -/
def Obligations.HistoryGrowsAndParametersStay : Prop :=
  ∀ s t : State, step s = .next t →
    s.history <+: t.history ∧ t.cfg = s.cfg ∧ t.req.length = s.req.length ∧
    t.errEn = s.errEn ∧ (t.evtEn = true → s.evtEn = true) ∧ t.tick = s.tick + 1 ∧ t.turns = s.turns.tail

/-- Every register access is a row of R114: no write to SR1, SR2, OAR1 or OAR2, no read of CR2, CCR, TRISE, OAR1 or OAR2,
and at most one access a step, made by the sequencer alone while its phase issues it (R16, R41, R114). -/
def Obligations.RegisterAccessesAreTableRows : Prop :=
  ∀ s t : State, step s = .next t →
    ∃ es, t.history = s.history ++ es ∧
      (∀ off v, Event.regWrite off v ∈ es →
        (off = 0x00 ∨ off = 0x04 ∨ off = 0x10 ∨ off = 0x1C ∨ off = 0x20) ∧
        (∃ v', s.turn.move = .sequencer v') ∧ s.phase ≠ .idle) ∧
      (∀ off v, Event.regRead off v ∈ es →
        (off = 0x00 ∨ off = 0x10 ∨ off = 0x14 ∨ off = 0x18) ∧ s.turn.move = .sequencer v ∧ s.phase ≠ .idle) ∧
      (es.filter fun e => match e with
        | .regRead _ _ => true
        | .regWrite _ _ => true
        | _ => false).length ≤ 1

/-- A transfer never writes CCR, TRISE or CR2: in the phases of a transfer only CR1 and DR are written (20_memory.md R83). -/
def Obligations.TransferWritesOnlyCr1AndDr : Prop :=
  ∀ (s t : State), inTransfer s.phase = true → step s = .next t →
    ∃ es, t.history = s.history ++ es ∧ ∀ off v, Event.regWrite off v ∈ es → off = 0x00 ∨ off = 0x10

/-- `dev` is written only by OPEN, at dispatch and from Closed, and by CLOSE, in CL_DISABLE and from Open (10_state.md R24). -/
def Obligations.DeviceStateChangesOnlyByOpenAndClose : Prop :=
  ∀ s t : State, step s = .next t → t.dev ≠ s.dev →
    (s.dev = .closed ∧ t.dev = .opened ∧ ∃ r a0 a1, s.turn.move = .dispatch r ∧ s.slot r = .submitted 1 a0 a1) ∨
    (s.dev = .opened ∧ t.dev = .closed ∧ s.phase = .clDisable ∧ ∃ v, s.turn.move = .sequencer v)

/-- `irq_mask` is written only by the sequencer, in TX_DATA and in the write loop (R27, R170, R175). -/
def Obligations.MaskChangesOnlyInTheWriteLoop : Prop :=
  ∀ s t : State, step s = .next t → t.irqMask ≠ s.irqMask →
    (∃ v, s.turn.move = .sequencer v) ∧ (s.phase = .txData ∨ s.phase = .txWrPoll ∨ s.phase = .txWrByte)

/-- A held lock is left only by its holder's own last phase, and a requester that waits stays as it is until it takes the
lock itself (R76, R77). -/
def Obligations.LockIsLeftOnlyByItsHolder : Prop :=
  ∀ s t : State, Inv s → step s = .next t →
    (∀ r, s.lock = .held r → t.lock = .held r ∨ (t.lock = .free ∧ t.phase = .idle ∧ ∃ st, t.slot r = .done st)) ∧
    (∀ q code a0 a1, s.slot q = .waitLock code a0 a1 →
      t.slot q = .waitLock code a0 a1 ∨ (s.lock = .free ∧ t.lock = .held q ∧ t.slot q = .running))

/-- The complete list of the causes of EINVAL (60_exceptions.md R231), for a step from a state of the invariant: raised in
the dispatch step, which makes no register access, except for a frequency above the ceiling under REJECT_TOUCHES_CR1. -/
def Obligations.EinvalHasOnlyItsCauses : Prop :=
  ∀ (s t : State) (r : Nat) (es : List Event), Inv s → step s = .next t → t.history = s.history ++ es →
    Event.complete r .einval ∈ es →
    (∃ code a0 a1, s.turn.move = .dispatch r ∧ s.slot r = .submitted code a0 a1 ∧
      (∀ off v, Event.regRead off v ∉ es ∧ Event.regWrite off v ∉ es) ∧
      ((code = 1 ∧ s.cfg.cfgAttached = false) ∨
        (code = 4 ∧ a0.toNat > s.cfg.fastMaxHz.toNat ∧ s.cfg.rejectTouchesCr1 = false) ∨
        (code ≠ 1 ∧ code ≠ 2 ∧ code ≠ 3 ∧ code ≠ 4) ∨
        (code = 1 ∧ s.dev = .opened) ∨
        (code = 2 ∧ s.dev = .closed) ∨
        ((code = 3 ∨ code = 4) ∧ s.dev = .closed))) ∨
    (s.phase = .sfrRestore ∧ s.lock = .held r ∧ s.x.op = 4 ∧ s.x.hz.toNat > s.cfg.fastMaxHz.toNat ∧
      s.cfg.rejectTouchesCr1 = true ∧ ∃ v, s.turn.move = .sequencer v)

/-- EBUS comes only from an error bit seen in one of the two status reads, and the word is latched (R233); ETIMEDOUT only
from the write wait under a finite limit (R234): the only ways `x[ERR]` takes those values. -/
def Obligations.TransferErrorsHaveOnlyTheirCauses : Prop :=
  ∀ s t : State, step s = .next t → t.x.err ≠ s.x.err →
    (t.x.err = .ok ∧ t.phase = .txFetch ∧ ∃ r, s.turn.move = .acquire r) ∨
    (t.x.err = .ebus ∧ s.x.err = .ok ∧ (s.phase = .txStartSt ∨ s.phase = .txAddrSt) ∧
      ∃ v, s.turn.move = .sequencer v ∧ v &&& errMask s.cfg ≠ 0 ∧ t.errSr1 = v ∧ t.phase = .txStop) ∨
    (t.x.err = .etimedout ∧ s.x.err = .ok ∧ s.phase = .txWrPoll ∧ t.phase = .txStop ∧
      ∃ v n, s.turn.move = .sequencer v ∧ v &&& s.cfg.sr1Txe = 0 ∧ s.cfg.txePollLimit = some n ∧ n ≤ s.x.polls + 1)

/-- The product of the divider formula never wraps and no divisor is ever 0 (R134, R137), in every state of the invariant
under parameters that meet their constraints; and every register address is a multiple of 4 (R64). -/
def Obligations.NoWrapNoZeroDivisor : Prop :=
  ∀ s : State, Inv s → s.halted = none →
    (s.phase = .sfDisable → (s.x.hz * 3).toNat = s.x.hz.toNat * 3 ∧ s.x.hz * 3 ≠ 0 ∧
      s.cfg.stdTimeConst ≠ 0 ∧ s.cfg.fastTimeConst ≠ 0) ∧
    ∀ r : Reg, (regAddress s.cfg r).toNat % 4 = 0

/-! ### The byte loops -/

/-- A read message of any length: exactly one DR read per byte, in increasing order, each low byte stored in its place of
the buffer and no other byte of caller memory changed (R171, R176). -/
def Obligations.ReadLoopFillsTheBuffer : Prop :=
  ∀ (s : State) (vs : List Word), s.halted = none → s.phase = .txRdByte → s.cmem.wf = true →
    s.x.bi.toNat < s.x.len.toNat → vs.length = s.x.len.toNat - s.x.bi.toNat →
    (∀ j, j < vs.length → s.admits (s.x.buf + s.x.bi + BitVec.ofNat 32 j).toNat 1 = true) →
    ∃ t, runSequencer s vs = .next t ∧ t.phase = .txNext ∧ t.x = { s.x with bi := s.x.len } ∧
      (∀ j, j < vs.length →
        t.cmem.read (s.x.buf + s.x.bi + BitVec.ofNat 32 j).toNat = (vs.getD j 0).extractLsb' 0 8) ∧
      (∀ a, (∀ j, j < vs.length → a ≠ (s.x.buf + s.x.bi + BitVec.ofNat 32 j).toNat) →
        t.cmem.read a = s.cmem.read a) ∧
      t.history = s.history ++ (vs.zipIdx.flatMap fun p =>
        [Event.regRead 0x10 p.1,
          .cMemWrite (s.x.buf + s.x.bi + BitVec.ofNat 32 p.2) 1 ((p.1.extractLsb' 0 8).zeroExtend 32)])

/-- A write message of any length whose polls all find transmit-empty: one poll and one DR write per byte, the bytes of the
buffer in increasing order, and the mask restored at the end (R172, R174, R175, R176). -/
def Obligations.WriteLoopSendsTheBuffer : Prop :=
  ∀ (s : State) (vs : List Word), s.halted = none → s.phase = .txWrPoll →
    s.x.bi.toNat < s.x.len.toNat → vs.length = s.x.len.toNat - s.x.bi.toNat →
    (∀ v ∈ vs, v &&& s.cfg.sr1Txe ≠ 0) →
    (∀ j, j < vs.length → s.admits (s.x.buf + s.x.bi + BitVec.ofNat 32 j).toNat 1 = true) →
    ∃ t, runSequencer s (vs.flatMap fun v => [v, 0]) = .next t ∧ t.phase = .txNext ∧ t.irqMask = s.x.irqSaved ∧
      t.cmem = s.cmem ∧ t.x.bi = s.x.len ∧
      t.history = s.history ++ (vs.zipIdx.flatMap fun p =>
        [Event.regRead 0x14 p.1,
          .cMemRead (s.x.buf + s.x.bi + BitVec.ofNat 32 p.2) 1
            ((s.cmem.read (s.x.buf + s.x.bi + BitVec.ofNat 32 p.2).toNat).zeroExtend 32),
          .regWrite 0x10 ((s.cmem.read (s.x.buf + s.x.bi + BitVec.ofNat 32 p.2).toNat).zeroExtend 32)])
        ++ [.maskRestore s.x.irqSaved]

/-- With no bound, a wait in which transmit-empty never shows goes on for any number of polls: the lock, the mask and the
ports stay as they were, only SR1 is read (R172, R282). -/
def Obligations.UnboundedWaitNeverEnds : Prop :=
  ∀ (s : State) (vs : List Word), s.halted = none → s.phase = .txWrPoll → s.cfg.txePollLimit = none →
    (∀ v ∈ vs, v &&& s.cfg.sr1Txe = 0) →
    ∃ t, runSequencer s vs = .next t ∧ t.phase = .txWrPoll ∧ t.lock = s.lock ∧ t.irqMask = s.irqMask ∧
      t.req = s.req ∧ t.cmem = s.cmem ∧ t.x.bi = s.x.bi ∧
      t.history = s.history ++ vs.map fun v => Event.regRead 0x14 v

/-- With the bound n, the n-th poll of a byte without transmit-empty raises the timeout: the mask restored, the byte not
written, control at the stop (R173, R234, R237). -/
def Obligations.BoundedWaitTimesOut : Prop :=
  ∀ (s : State) (vs : List Word) (n : Nat), s.halted = none → s.phase = .txWrPoll → s.cfg.txePollLimit = some n →
    s.x.polls < n → vs.length = n - s.x.polls → s.x.err = .ok → (∀ v ∈ vs, v &&& s.cfg.sr1Txe = 0) →
    ∃ t, runSequencer s vs = .next t ∧ t.phase = .txStop ∧ t.x.err = .etimedout ∧ t.irqMask = s.x.irqSaved ∧
      t.cmem = s.cmem ∧
      t.history = s.history ++ (vs.map fun v => Event.regRead 0x14 v) ++ [.maskRestore s.x.irqSaved]

/-! ### Several instances -/

/-- A step of one controller instance is its own step and leaves every other instance as it was (60_exceptions.md R256), and
instances two of whose registers share an address have no step (93_implementation_defined.md U27). The registry as a list
and the refusal are the model's choice (log 24), as are a caller memory for each instance (log 30) and an index that names
no instance (log 28). -/
def Obligations.InstancesDoNotInteract : Prop :=
  (∀ (ms ns : Registry) (k : Nat), Registry.step ms k = .next ns →
    ns.length = ms.length ∧ (∀ j, j ≠ k → ns[j]? = ms[j]?) ∧ Registry.apart ns = true ∧
    ∀ s, ms[k]? = some s → ∃ t, Machine.step s = .next t ∧ ns[k]? = some t) ∧
  (∀ (ms : Registry) (k : Nat) (s t : State), Registry.apart ms = true → ms[k]? = some s → Machine.step s = .next t →
    Registry.step ms k = .next (ms.set k t)) ∧
  (∀ (ms : Registry) (i j k : Nat) (s t : State) (r r' : Reg), i < j → ms[i]? = some s → ms[j]? = some t →
    regAddress s.cfg r = regAddress t.cfg r' → Registry.step ms k = .refused .overlappingInstances)
end

