-- ==== Sys2Proof/Laws/Memory.lean ====
section
/-! SUPPORT. The laws of caller memory: a byte reads back as written, a write leaves every other byte alone and keeps the
canonical form. -/

namespace Sys2Proof.Machine

theorem Memory.wfFrom_cons {lo k : Nat} {b : Byte} {m : Memory} :
    Memory.wfFrom lo ((k, b) :: m) = true ↔
      lo ≤ k ∧ k < 2 ^ 32 ∧ b ≠ Memory.blank ∧ Memory.wfFrom (k + 1) m = true := by
  simp [Memory.wfFrom, and_assoc]

theorem Memory.wfFrom_weaken {lo lo' : Nat} {m : Memory} (h : Memory.wfFrom lo m = true) (hl : lo' ≤ lo) :
    Memory.wfFrom lo' m = true := by
  cases m with
  | nil => rfl
  | cons p m =>
    obtain ⟨k, b⟩ := p
    rw [Memory.wfFrom_cons] at h ⊢
    exact ⟨hl.trans h.1, h.2⟩

/-- Below the first address nothing is listed. -/
theorem Memory.read_below {lo a : Nat} {m : Memory} (h : Memory.wfFrom lo m = true) (ha : a < lo) :
    Memory.read m a = Memory.blank := by
  induction m generalizing lo with
  | nil => rfl
  | cons p m ih =>
    obtain ⟨k, b⟩ := p
    rw [Memory.wfFrom_cons] at h
    rw [Memory.read, if_neg (by omega)]
    exact ih h.2.2.2 (by omega)

theorem Memory.read_write_same {lo : Nat} {m : Memory} (h : Memory.wfFrom lo m = true) (a : Nat) (b : Byte) :
    Memory.read (Memory.write m a b) a = b := by
  induction m generalizing lo with
  | nil => by_cases hb : b = Memory.blank <;> simp [Memory.write, Memory.read, hb]
  | cons p m ih =>
    obtain ⟨k, c⟩ := p
    have hc := Memory.wfFrom_cons.mp h
    unfold Memory.write
    split_ifs with hlt hb heq hb
    · rw [hb]; exact Memory.read_below (Memory.wfFrom_cons.mpr ⟨le_rfl, hc.2⟩) hlt
    · simp [Memory.read]
    · rw [hb]; exact Memory.read_below hc.2.2.2 (by omega)
    · simp [Memory.read]
    · rw [Memory.read, if_neg (by omega)]; exact ih hc.2.2.2

theorem Memory.read_write_other (m : Memory) {a a' : Nat} (b : Byte) (h : a' ≠ a) :
    Memory.read (Memory.write m a b) a' = Memory.read m a' := by
  have ne : a ≠ a' := fun e => h e.symm
  induction m with
  | nil => by_cases hb : b = Memory.blank <;> simp [Memory.write, Memory.read, hb, ne]
  | cons p m ih =>
    obtain ⟨k, c⟩ := p
    unfold Memory.write
    split_ifs with hlt hb heq hb
    · rfl
    · simp [Memory.read, ne]
    · subst heq; simp [Memory.read, ne]
    · subst heq; simp [Memory.read, ne]
    · simp only [Memory.read, ih]

theorem Memory.wfFrom_write {lo a : Nat} {m : Memory} (b : Byte) (hm : Memory.wfFrom lo m = true) (hlo : lo ≤ a)
    (ha : a < 2 ^ 32) : Memory.wfFrom lo (Memory.write m a b) = true := by
  induction m generalizing lo with
  | nil =>
    unfold Memory.write
    split_ifs with hb
    · rfl
    · exact Memory.wfFrom_cons.mpr ⟨hlo, ha, hb, rfl⟩
  | cons p m ih =>
    obtain ⟨k, c⟩ := p
    have hc := Memory.wfFrom_cons.mp hm
    unfold Memory.write
    split_ifs with hlt hb heq hb
    · exact hm
    · exact Memory.wfFrom_cons.mpr ⟨hlo, ha, hb, Memory.wfFrom_cons.mpr ⟨hlt, hc.2⟩⟩
    · exact Memory.wfFrom_weaken hc.2.2.2 (by omega)
    · exact Memory.wfFrom_cons.mpr ⟨hlo, ha, hb, by rw [heq]; exact hc.2.2.2⟩
    · exact Memory.wfFrom_cons.mpr ⟨hc.1, hc.2.1, hc.2.2.1, ih hc.2.2.2 (by omega)⟩

/-- Every store keeps the canonical form. -/
theorem Memory.wf_write {m : Memory} (hm : m.wf = true) (a : Word) (b : Byte) : (m.write a.toNat b).wf = true :=
  Memory.wfFrom_write b hm (Nat.zero_le _) a.isLt

/-- Memory at reset has the canonical form. -/
theorem Memory.wf_reset : State.reset.cmem.wf = true := rfl

end Sys2Proof.Machine
end

