-- ==== Sys2Proof/Laws/State.lean ====
section
/-! SUPPORT. One lemma per field per update of the state, each by definition, so that no proof unfolds an update. -/

namespace Sys2Proof.Machine

/-! ### `log` -/

@[simp] theorem State.log_cfg (s : State) (e : Event) : (s.log e).cfg = s.cfg := by rfl
@[simp] theorem State.log_x (s : State) (e : Event) : (s.log e).x = s.x := by rfl
@[simp] theorem State.log_phase (s : State) (e : Event) : (s.log e).phase = s.phase := by rfl
@[simp] theorem State.log_dev (s : State) (e : Event) : (s.log e).dev = s.dev := by rfl
@[simp] theorem State.log_lock (s : State) (e : Event) : (s.log e).lock = s.lock := by rfl
@[simp] theorem State.log_sig (s : State) (e : Event) : (s.log e).sig = s.sig := by rfl
@[simp] theorem State.log_evtEn (s : State) (e : Event) : (s.log e).evtEn = s.evtEn := by rfl
@[simp] theorem State.log_errEn (s : State) (e : Event) : (s.log e).errEn = s.errEn := by rfl
@[simp] theorem State.log_irqMask (s : State) (e : Event) : (s.log e).irqMask = s.irqMask := by rfl
@[simp] theorem State.log_fault (s : State) (e : Event) : (s.log e).fault = s.fault := by rfl
@[simp] theorem State.log_errSr1 (s : State) (e : Event) : (s.log e).errSr1 = s.errSr1 := by rfl
@[simp] theorem State.log_req (s : State) (e : Event) : (s.log e).req = s.req := by rfl
@[simp] theorem State.log_history (s : State) (e : Event) : (s.log e).history = s.history ++ [e] := by rfl
@[simp] theorem State.log_cmem (s : State) (e : Event) : (s.log e).cmem = s.cmem := by rfl
@[simp] theorem State.log_lent (s : State) (e : Event) : (s.log e).lent = s.lent := by rfl
@[simp] theorem State.log_evtLine (s : State) (e : Event) : (s.log e).evtLine = s.evtLine := by rfl
@[simp] theorem State.log_errLine (s : State) (e : Event) : (s.log e).errLine = s.errLine := by rfl
@[simp] theorem State.log_allocOk (s : State) (e : Event) : (s.log e).allocOk = s.allocOk := by rfl
@[simp] theorem State.log_port (s : State) (e : Event) : (s.log e).port = s.port := by rfl
@[simp] theorem State.log_turns (s : State) (e : Event) : (s.log e).turns = s.turns := by rfl
@[simp] theorem State.log_tick (s : State) (e : Event) : (s.log e).tick = s.tick := by rfl

/-! ### `goto` -/

@[simp] theorem State.goto_cfg (s : State) (ph : Phase) : (s.goto ph).cfg = s.cfg := by rfl
@[simp] theorem State.goto_x (s : State) (ph : Phase) : (s.goto ph).x = s.x := by rfl
@[simp] theorem State.goto_phase (s : State) (ph : Phase) : (s.goto ph).phase = ph := by rfl
@[simp] theorem State.goto_dev (s : State) (ph : Phase) : (s.goto ph).dev = s.dev := by rfl
@[simp] theorem State.goto_lock (s : State) (ph : Phase) : (s.goto ph).lock = s.lock := by rfl
@[simp] theorem State.goto_sig (s : State) (ph : Phase) : (s.goto ph).sig = s.sig := by rfl
@[simp] theorem State.goto_evtEn (s : State) (ph : Phase) : (s.goto ph).evtEn = s.evtEn := by rfl
@[simp] theorem State.goto_errEn (s : State) (ph : Phase) : (s.goto ph).errEn = s.errEn := by rfl
@[simp] theorem State.goto_irqMask (s : State) (ph : Phase) : (s.goto ph).irqMask = s.irqMask := by rfl
@[simp] theorem State.goto_fault (s : State) (ph : Phase) : (s.goto ph).fault = s.fault := by rfl
@[simp] theorem State.goto_errSr1 (s : State) (ph : Phase) : (s.goto ph).errSr1 = s.errSr1 := by rfl
@[simp] theorem State.goto_req (s : State) (ph : Phase) : (s.goto ph).req = s.req := by rfl
@[simp] theorem State.goto_history (s : State) (ph : Phase) : (s.goto ph).history = s.history := by rfl
@[simp] theorem State.goto_cmem (s : State) (ph : Phase) : (s.goto ph).cmem = s.cmem := by rfl
@[simp] theorem State.goto_lent (s : State) (ph : Phase) : (s.goto ph).lent = s.lent := by rfl
@[simp] theorem State.goto_evtLine (s : State) (ph : Phase) : (s.goto ph).evtLine = s.evtLine := by rfl
@[simp] theorem State.goto_errLine (s : State) (ph : Phase) : (s.goto ph).errLine = s.errLine := by rfl
@[simp] theorem State.goto_allocOk (s : State) (ph : Phase) : (s.goto ph).allocOk = s.allocOk := by rfl
@[simp] theorem State.goto_port (s : State) (ph : Phase) : (s.goto ph).port = s.port := by rfl
@[simp] theorem State.goto_turns (s : State) (ph : Phase) : (s.goto ph).turns = s.turns := by rfl
@[simp] theorem State.goto_tick (s : State) (ph : Phase) : (s.goto ph).tick = s.tick := by rfl

/-! ### `setX` -/

@[simp] theorem State.setX_cfg (s : State) (x : Regs) : (s.setX x).cfg = s.cfg := by rfl
@[simp] theorem State.setX_x (s : State) (x : Regs) : (s.setX x).x = x := by rfl
@[simp] theorem State.setX_phase (s : State) (x : Regs) : (s.setX x).phase = s.phase := by rfl
@[simp] theorem State.setX_dev (s : State) (x : Regs) : (s.setX x).dev = s.dev := by rfl
@[simp] theorem State.setX_lock (s : State) (x : Regs) : (s.setX x).lock = s.lock := by rfl
@[simp] theorem State.setX_sig (s : State) (x : Regs) : (s.setX x).sig = s.sig := by rfl
@[simp] theorem State.setX_evtEn (s : State) (x : Regs) : (s.setX x).evtEn = s.evtEn := by rfl
@[simp] theorem State.setX_errEn (s : State) (x : Regs) : (s.setX x).errEn = s.errEn := by rfl
@[simp] theorem State.setX_irqMask (s : State) (x : Regs) : (s.setX x).irqMask = s.irqMask := by rfl
@[simp] theorem State.setX_fault (s : State) (x : Regs) : (s.setX x).fault = s.fault := by rfl
@[simp] theorem State.setX_errSr1 (s : State) (x : Regs) : (s.setX x).errSr1 = s.errSr1 := by rfl
@[simp] theorem State.setX_req (s : State) (x : Regs) : (s.setX x).req = s.req := by rfl
@[simp] theorem State.setX_history (s : State) (x : Regs) : (s.setX x).history = s.history := by rfl
@[simp] theorem State.setX_cmem (s : State) (x : Regs) : (s.setX x).cmem = s.cmem := by rfl
@[simp] theorem State.setX_lent (s : State) (x : Regs) : (s.setX x).lent = s.lent := by rfl
@[simp] theorem State.setX_evtLine (s : State) (x : Regs) : (s.setX x).evtLine = s.evtLine := by rfl
@[simp] theorem State.setX_errLine (s : State) (x : Regs) : (s.setX x).errLine = s.errLine := by rfl
@[simp] theorem State.setX_allocOk (s : State) (x : Regs) : (s.setX x).allocOk = s.allocOk := by rfl
@[simp] theorem State.setX_port (s : State) (x : Regs) : (s.setX x).port = s.port := by rfl
@[simp] theorem State.setX_turns (s : State) (x : Regs) : (s.setX x).turns = s.turns := by rfl
@[simp] theorem State.setX_tick (s : State) (x : Regs) : (s.setX x).tick = s.tick := by rfl

/-! ### `setSlot` -/

@[simp] theorem State.setSlot_cfg (s : State) (r : Nat) (v : Slot) : (s.setSlot r v).cfg = s.cfg := by rfl
@[simp] theorem State.setSlot_x (s : State) (r : Nat) (v : Slot) : (s.setSlot r v).x = s.x := by rfl
@[simp] theorem State.setSlot_phase (s : State) (r : Nat) (v : Slot) : (s.setSlot r v).phase = s.phase := by rfl
@[simp] theorem State.setSlot_dev (s : State) (r : Nat) (v : Slot) : (s.setSlot r v).dev = s.dev := by rfl
@[simp] theorem State.setSlot_lock (s : State) (r : Nat) (v : Slot) : (s.setSlot r v).lock = s.lock := by rfl
@[simp] theorem State.setSlot_sig (s : State) (r : Nat) (v : Slot) : (s.setSlot r v).sig = s.sig := by rfl
@[simp] theorem State.setSlot_evtEn (s : State) (r : Nat) (v : Slot) : (s.setSlot r v).evtEn = s.evtEn := by rfl
@[simp] theorem State.setSlot_errEn (s : State) (r : Nat) (v : Slot) : (s.setSlot r v).errEn = s.errEn := by rfl
@[simp] theorem State.setSlot_irqMask (s : State) (r : Nat) (v : Slot) : (s.setSlot r v).irqMask = s.irqMask := by rfl
@[simp] theorem State.setSlot_fault (s : State) (r : Nat) (v : Slot) : (s.setSlot r v).fault = s.fault := by rfl
@[simp] theorem State.setSlot_errSr1 (s : State) (r : Nat) (v : Slot) : (s.setSlot r v).errSr1 = s.errSr1 := by rfl
@[simp] theorem State.setSlot_req (s : State) (r : Nat) (v : Slot) : (s.setSlot r v).req = s.req.set r v := by rfl
@[simp] theorem State.setSlot_history (s : State) (r : Nat) (v : Slot) : (s.setSlot r v).history = s.history := by rfl
@[simp] theorem State.setSlot_cmem (s : State) (r : Nat) (v : Slot) : (s.setSlot r v).cmem = s.cmem := by rfl
@[simp] theorem State.setSlot_lent (s : State) (r : Nat) (v : Slot) : (s.setSlot r v).lent = s.lent := by rfl
@[simp] theorem State.setSlot_evtLine (s : State) (r : Nat) (v : Slot) : (s.setSlot r v).evtLine = s.evtLine := by rfl
@[simp] theorem State.setSlot_errLine (s : State) (r : Nat) (v : Slot) : (s.setSlot r v).errLine = s.errLine := by rfl
@[simp] theorem State.setSlot_allocOk (s : State) (r : Nat) (v : Slot) : (s.setSlot r v).allocOk = s.allocOk := by rfl
@[simp] theorem State.setSlot_port (s : State) (r : Nat) (v : Slot) : (s.setSlot r v).port = s.port := by rfl
@[simp] theorem State.setSlot_turns (s : State) (r : Nat) (v : Slot) : (s.setSlot r v).turns = s.turns := by rfl
@[simp] theorem State.setSlot_tick (s : State) (r : Nat) (v : Slot) : (s.setSlot r v).tick = s.tick := by rfl

/-! ### `setLock` -/

@[simp] theorem State.setLock_cfg (s : State) (l : Lock) : (s.setLock l).cfg = s.cfg := by rfl
@[simp] theorem State.setLock_x (s : State) (l : Lock) : (s.setLock l).x = s.x := by rfl
@[simp] theorem State.setLock_phase (s : State) (l : Lock) : (s.setLock l).phase = s.phase := by rfl
@[simp] theorem State.setLock_dev (s : State) (l : Lock) : (s.setLock l).dev = s.dev := by rfl
@[simp] theorem State.setLock_lock (s : State) (l : Lock) : (s.setLock l).lock = l := by rfl
@[simp] theorem State.setLock_sig (s : State) (l : Lock) : (s.setLock l).sig = s.sig := by rfl
@[simp] theorem State.setLock_evtEn (s : State) (l : Lock) : (s.setLock l).evtEn = s.evtEn := by rfl
@[simp] theorem State.setLock_errEn (s : State) (l : Lock) : (s.setLock l).errEn = s.errEn := by rfl
@[simp] theorem State.setLock_irqMask (s : State) (l : Lock) : (s.setLock l).irqMask = s.irqMask := by rfl
@[simp] theorem State.setLock_fault (s : State) (l : Lock) : (s.setLock l).fault = s.fault := by rfl
@[simp] theorem State.setLock_errSr1 (s : State) (l : Lock) : (s.setLock l).errSr1 = s.errSr1 := by rfl
@[simp] theorem State.setLock_req (s : State) (l : Lock) : (s.setLock l).req = s.req := by rfl
@[simp] theorem State.setLock_history (s : State) (l : Lock) : (s.setLock l).history = s.history := by rfl
@[simp] theorem State.setLock_cmem (s : State) (l : Lock) : (s.setLock l).cmem = s.cmem := by rfl
@[simp] theorem State.setLock_lent (s : State) (l : Lock) : (s.setLock l).lent = s.lent := by rfl
@[simp] theorem State.setLock_evtLine (s : State) (l : Lock) : (s.setLock l).evtLine = s.evtLine := by rfl
@[simp] theorem State.setLock_errLine (s : State) (l : Lock) : (s.setLock l).errLine = s.errLine := by rfl
@[simp] theorem State.setLock_allocOk (s : State) (l : Lock) : (s.setLock l).allocOk = s.allocOk := by rfl
@[simp] theorem State.setLock_port (s : State) (l : Lock) : (s.setLock l).port = s.port := by rfl
@[simp] theorem State.setLock_turns (s : State) (l : Lock) : (s.setLock l).turns = s.turns := by rfl
@[simp] theorem State.setLock_tick (s : State) (l : Lock) : (s.setLock l).tick = s.tick := by rfl

/-! ### `setDev` -/

@[simp] theorem State.setDev_cfg (s : State) (d : Dev) : (s.setDev d).cfg = s.cfg := by rfl
@[simp] theorem State.setDev_x (s : State) (d : Dev) : (s.setDev d).x = s.x := by rfl
@[simp] theorem State.setDev_phase (s : State) (d : Dev) : (s.setDev d).phase = s.phase := by rfl
@[simp] theorem State.setDev_dev (s : State) (d : Dev) : (s.setDev d).dev = d := by rfl
@[simp] theorem State.setDev_lock (s : State) (d : Dev) : (s.setDev d).lock = s.lock := by rfl
@[simp] theorem State.setDev_sig (s : State) (d : Dev) : (s.setDev d).sig = s.sig := by rfl
@[simp] theorem State.setDev_evtEn (s : State) (d : Dev) : (s.setDev d).evtEn = s.evtEn := by rfl
@[simp] theorem State.setDev_errEn (s : State) (d : Dev) : (s.setDev d).errEn = s.errEn := by rfl
@[simp] theorem State.setDev_irqMask (s : State) (d : Dev) : (s.setDev d).irqMask = s.irqMask := by rfl
@[simp] theorem State.setDev_fault (s : State) (d : Dev) : (s.setDev d).fault = s.fault := by rfl
@[simp] theorem State.setDev_errSr1 (s : State) (d : Dev) : (s.setDev d).errSr1 = s.errSr1 := by rfl
@[simp] theorem State.setDev_req (s : State) (d : Dev) : (s.setDev d).req = s.req := by rfl
@[simp] theorem State.setDev_history (s : State) (d : Dev) : (s.setDev d).history = s.history := by rfl
@[simp] theorem State.setDev_cmem (s : State) (d : Dev) : (s.setDev d).cmem = s.cmem := by rfl
@[simp] theorem State.setDev_lent (s : State) (d : Dev) : (s.setDev d).lent = s.lent := by rfl
@[simp] theorem State.setDev_evtLine (s : State) (d : Dev) : (s.setDev d).evtLine = s.evtLine := by rfl
@[simp] theorem State.setDev_errLine (s : State) (d : Dev) : (s.setDev d).errLine = s.errLine := by rfl
@[simp] theorem State.setDev_allocOk (s : State) (d : Dev) : (s.setDev d).allocOk = s.allocOk := by rfl
@[simp] theorem State.setDev_port (s : State) (d : Dev) : (s.setDev d).port = s.port := by rfl
@[simp] theorem State.setDev_turns (s : State) (d : Dev) : (s.setDev d).turns = s.turns := by rfl
@[simp] theorem State.setDev_tick (s : State) (d : Dev) : (s.setDev d).tick = s.tick := by rfl

/-! ### `setIrqMask` -/

@[simp] theorem State.setIrqMask_cfg (s : State) (b : Bool) : (s.setIrqMask b).cfg = s.cfg := by rfl
@[simp] theorem State.setIrqMask_x (s : State) (b : Bool) : (s.setIrqMask b).x = s.x := by rfl
@[simp] theorem State.setIrqMask_phase (s : State) (b : Bool) : (s.setIrqMask b).phase = s.phase := by rfl
@[simp] theorem State.setIrqMask_dev (s : State) (b : Bool) : (s.setIrqMask b).dev = s.dev := by rfl
@[simp] theorem State.setIrqMask_lock (s : State) (b : Bool) : (s.setIrqMask b).lock = s.lock := by rfl
@[simp] theorem State.setIrqMask_sig (s : State) (b : Bool) : (s.setIrqMask b).sig = s.sig := by rfl
@[simp] theorem State.setIrqMask_evtEn (s : State) (b : Bool) : (s.setIrqMask b).evtEn = s.evtEn := by rfl
@[simp] theorem State.setIrqMask_errEn (s : State) (b : Bool) : (s.setIrqMask b).errEn = s.errEn := by rfl
@[simp] theorem State.setIrqMask_irqMask (s : State) (b : Bool) : (s.setIrqMask b).irqMask = b := by rfl
@[simp] theorem State.setIrqMask_fault (s : State) (b : Bool) : (s.setIrqMask b).fault = s.fault := by rfl
@[simp] theorem State.setIrqMask_errSr1 (s : State) (b : Bool) : (s.setIrqMask b).errSr1 = s.errSr1 := by rfl
@[simp] theorem State.setIrqMask_req (s : State) (b : Bool) : (s.setIrqMask b).req = s.req := by rfl
@[simp] theorem State.setIrqMask_history (s : State) (b : Bool) : (s.setIrqMask b).history = s.history := by rfl
@[simp] theorem State.setIrqMask_cmem (s : State) (b : Bool) : (s.setIrqMask b).cmem = s.cmem := by rfl
@[simp] theorem State.setIrqMask_lent (s : State) (b : Bool) : (s.setIrqMask b).lent = s.lent := by rfl
@[simp] theorem State.setIrqMask_evtLine (s : State) (b : Bool) : (s.setIrqMask b).evtLine = s.evtLine := by rfl
@[simp] theorem State.setIrqMask_errLine (s : State) (b : Bool) : (s.setIrqMask b).errLine = s.errLine := by rfl
@[simp] theorem State.setIrqMask_allocOk (s : State) (b : Bool) : (s.setIrqMask b).allocOk = s.allocOk := by rfl
@[simp] theorem State.setIrqMask_port (s : State) (b : Bool) : (s.setIrqMask b).port = s.port := by rfl
@[simp] theorem State.setIrqMask_turns (s : State) (b : Bool) : (s.setIrqMask b).turns = s.turns := by rfl
@[simp] theorem State.setIrqMask_tick (s : State) (b : Bool) : (s.setIrqMask b).tick = s.tick := by rfl

/-! ### `withPort` -/

@[simp] theorem State.withPort_cfg (s : State) (r : Nat) : (s.withPort r).cfg = s.cfg := by rfl
@[simp] theorem State.withPort_x (s : State) (r : Nat) : (s.withPort r).x = s.x := by rfl
@[simp] theorem State.withPort_phase (s : State) (r : Nat) : (s.withPort r).phase = s.phase := by rfl
@[simp] theorem State.withPort_dev (s : State) (r : Nat) : (s.withPort r).dev = s.dev := by rfl
@[simp] theorem State.withPort_lock (s : State) (r : Nat) : (s.withPort r).lock = s.lock := by rfl
@[simp] theorem State.withPort_sig (s : State) (r : Nat) : (s.withPort r).sig = s.sig := by rfl
@[simp] theorem State.withPort_evtEn (s : State) (r : Nat) : (s.withPort r).evtEn = s.evtEn := by rfl
@[simp] theorem State.withPort_errEn (s : State) (r : Nat) : (s.withPort r).errEn = s.errEn := by rfl
@[simp] theorem State.withPort_irqMask (s : State) (r : Nat) : (s.withPort r).irqMask = s.irqMask := by rfl
@[simp] theorem State.withPort_fault (s : State) (r : Nat) : (s.withPort r).fault = s.fault := by rfl
@[simp] theorem State.withPort_errSr1 (s : State) (r : Nat) : (s.withPort r).errSr1 = s.errSr1 := by rfl
@[simp] theorem State.withPort_req (s : State) (r : Nat) : (s.withPort r).req = s.req := by rfl
@[simp] theorem State.withPort_history (s : State) (r : Nat) : (s.withPort r).history = s.history := by rfl
@[simp] theorem State.withPort_cmem (s : State) (r : Nat) : (s.withPort r).cmem = s.cmem := by rfl
@[simp] theorem State.withPort_lent (s : State) (r : Nat) : (s.withPort r).lent = s.lent := by rfl
@[simp] theorem State.withPort_evtLine (s : State) (r : Nat) : (s.withPort r).evtLine = s.evtLine := by rfl
@[simp] theorem State.withPort_errLine (s : State) (r : Nat) : (s.withPort r).errLine = s.errLine := by rfl
@[simp] theorem State.withPort_allocOk (s : State) (r : Nat) : (s.withPort r).allocOk = s.allocOk := by rfl
@[simp] theorem State.withPort_port (s : State) (r : Nat) : (s.withPort r).port = r := by rfl
@[simp] theorem State.withPort_turns (s : State) (r : Nat) : (s.withPort r).turns = s.turns := by rfl
@[simp] theorem State.withPort_tick (s : State) (r : Nat) : (s.withPort r).tick = s.tick := by rfl

/-! ### `unlend` -/

@[simp] theorem State.unlend_cfg (s : State) (r : Nat) : (s.unlend r).cfg = s.cfg := by rfl
@[simp] theorem State.unlend_x (s : State) (r : Nat) : (s.unlend r).x = s.x := by rfl
@[simp] theorem State.unlend_phase (s : State) (r : Nat) : (s.unlend r).phase = s.phase := by rfl
@[simp] theorem State.unlend_dev (s : State) (r : Nat) : (s.unlend r).dev = s.dev := by rfl
@[simp] theorem State.unlend_lock (s : State) (r : Nat) : (s.unlend r).lock = s.lock := by rfl
@[simp] theorem State.unlend_sig (s : State) (r : Nat) : (s.unlend r).sig = s.sig := by rfl
@[simp] theorem State.unlend_evtEn (s : State) (r : Nat) : (s.unlend r).evtEn = s.evtEn := by rfl
@[simp] theorem State.unlend_errEn (s : State) (r : Nat) : (s.unlend r).errEn = s.errEn := by rfl
@[simp] theorem State.unlend_irqMask (s : State) (r : Nat) : (s.unlend r).irqMask = s.irqMask := by rfl
@[simp] theorem State.unlend_fault (s : State) (r : Nat) : (s.unlend r).fault = s.fault := by rfl
@[simp] theorem State.unlend_errSr1 (s : State) (r : Nat) : (s.unlend r).errSr1 = s.errSr1 := by rfl
@[simp] theorem State.unlend_req (s : State) (r : Nat) : (s.unlend r).req = s.req := by rfl
@[simp] theorem State.unlend_history (s : State) (r : Nat) : (s.unlend r).history = s.history := by rfl
@[simp] theorem State.unlend_cmem (s : State) (r : Nat) : (s.unlend r).cmem = s.cmem := by rfl
@[simp] theorem State.unlend_lent (s : State) (r : Nat) : (s.unlend r).lent = s.lent.filter fun g => g.owner != r := by rfl
@[simp] theorem State.unlend_evtLine (s : State) (r : Nat) : (s.unlend r).evtLine = s.evtLine := by rfl
@[simp] theorem State.unlend_errLine (s : State) (r : Nat) : (s.unlend r).errLine = s.errLine := by rfl
@[simp] theorem State.unlend_allocOk (s : State) (r : Nat) : (s.unlend r).allocOk = s.allocOk := by rfl
@[simp] theorem State.unlend_port (s : State) (r : Nat) : (s.unlend r).port = s.port := by rfl
@[simp] theorem State.unlend_turns (s : State) (r : Nat) : (s.unlend r).turns = s.turns := by rfl
@[simp] theorem State.unlend_tick (s : State) (r : Nat) : (s.unlend r).tick = s.tick := by rfl

/-! ### `takeTurn` -/

@[simp] theorem State.takeTurn_cfg (s : State) : s.takeTurn.cfg = s.cfg := by rfl
@[simp] theorem State.takeTurn_x (s : State) : s.takeTurn.x = s.x := by rfl
@[simp] theorem State.takeTurn_phase (s : State) : s.takeTurn.phase = s.phase := by rfl
@[simp] theorem State.takeTurn_dev (s : State) : s.takeTurn.dev = s.dev := by rfl
@[simp] theorem State.takeTurn_lock (s : State) : s.takeTurn.lock = s.lock := by rfl
@[simp] theorem State.takeTurn_sig (s : State) : s.takeTurn.sig = s.sig := by rfl
@[simp] theorem State.takeTurn_evtEn (s : State) : s.takeTurn.evtEn = s.evtEn := by rfl
@[simp] theorem State.takeTurn_errEn (s : State) : s.takeTurn.errEn = s.errEn := by rfl
@[simp] theorem State.takeTurn_irqMask (s : State) : s.takeTurn.irqMask = s.irqMask := by rfl
@[simp] theorem State.takeTurn_fault (s : State) : s.takeTurn.fault = s.fault := by rfl
@[simp] theorem State.takeTurn_errSr1 (s : State) : s.takeTurn.errSr1 = s.errSr1 := by rfl
@[simp] theorem State.takeTurn_req (s : State) : s.takeTurn.req = s.req := by rfl
@[simp] theorem State.takeTurn_history (s : State) : s.takeTurn.history = s.history := by rfl
@[simp] theorem State.takeTurn_cmem (s : State) : s.takeTurn.cmem = s.cmem := by rfl
@[simp] theorem State.takeTurn_lent (s : State) : s.takeTurn.lent = s.lent := by rfl
@[simp] theorem State.takeTurn_evtLine (s : State) : s.takeTurn.evtLine = s.turn.evtLine := by rfl
@[simp] theorem State.takeTurn_errLine (s : State) : s.takeTurn.errLine = s.turn.errLine := by rfl
@[simp] theorem State.takeTurn_allocOk (s : State) : s.takeTurn.allocOk = s.turn.allocOk := by rfl
@[simp] theorem State.takeTurn_port (s : State) : s.takeTurn.port = s.port := by rfl
@[simp] theorem State.takeTurn_turns (s : State) : s.takeTurn.turns = s.turns.tail := by rfl
@[simp] theorem State.takeTurn_tick (s : State) : s.takeTurn.tick = s.tick + 1 := by rfl

/-! ### `post` -/

@[simp] theorem State.post_cfg (s : State) : s.post.cfg = s.cfg := by rfl
@[simp] theorem State.post_x (s : State) : s.post.x = s.x := by rfl
@[simp] theorem State.post_phase (s : State) : s.post.phase = s.phase := by rfl
@[simp] theorem State.post_dev (s : State) : s.post.dev = s.dev := by rfl
@[simp] theorem State.post_lock (s : State) : s.post.lock = s.lock := by rfl
@[simp] theorem State.post_sig (s : State) : s.post.sig = if s.sig = BitVec.allOnes 32 then s.sig else s.sig + 1 := by rfl
@[simp] theorem State.post_evtEn (s : State) : s.post.evtEn = s.evtEn := by rfl
@[simp] theorem State.post_errEn (s : State) : s.post.errEn = s.errEn := by rfl
@[simp] theorem State.post_irqMask (s : State) : s.post.irqMask = s.irqMask := by rfl
@[simp] theorem State.post_fault (s : State) : s.post.fault = s.fault := by rfl
@[simp] theorem State.post_errSr1 (s : State) : s.post.errSr1 = s.errSr1 := by rfl
@[simp] theorem State.post_req (s : State) : s.post.req = s.req := by rfl
@[simp] theorem State.post_history (s : State) : s.post.history = s.history := by rfl
@[simp] theorem State.post_cmem (s : State) : s.post.cmem = s.cmem := by rfl
@[simp] theorem State.post_lent (s : State) : s.post.lent = s.lent := by rfl
@[simp] theorem State.post_evtLine (s : State) : s.post.evtLine = s.evtLine := by rfl
@[simp] theorem State.post_errLine (s : State) : s.post.errLine = s.errLine := by rfl
@[simp] theorem State.post_allocOk (s : State) : s.post.allocOk = s.allocOk := by rfl
@[simp] theorem State.post_port (s : State) : s.post.port = s.port := by rfl
@[simp] theorem State.post_turns (s : State) : s.post.turns = s.turns := by rfl
@[simp] theorem State.post_tick (s : State) : s.post.tick = s.tick := by rfl

/-! ### `raiseFault` -/

theorem State.raiseFault_of_none {s : State} (h : s.fault = none) (f : Fault) :
    s.raiseFault f = { s.log (.fault f) with fault := some f } := by
  simp [State.raiseFault, h]

@[simp] theorem State.raiseFault_cfg (s : State) (f : Fault) : (s.raiseFault f).cfg = s.cfg := by
  unfold State.raiseFault; split <;> rfl
@[simp] theorem State.raiseFault_x (s : State) (f : Fault) : (s.raiseFault f).x = s.x := by
  unfold State.raiseFault; split <;> rfl
@[simp] theorem State.raiseFault_phase (s : State) (f : Fault) : (s.raiseFault f).phase = s.phase := by
  unfold State.raiseFault; split <;> rfl
@[simp] theorem State.raiseFault_dev (s : State) (f : Fault) : (s.raiseFault f).dev = s.dev := by
  unfold State.raiseFault; split <;> rfl
@[simp] theorem State.raiseFault_lock (s : State) (f : Fault) : (s.raiseFault f).lock = s.lock := by
  unfold State.raiseFault; split <;> rfl
@[simp] theorem State.raiseFault_sig (s : State) (f : Fault) : (s.raiseFault f).sig = s.sig := by
  unfold State.raiseFault; split <;> rfl
@[simp] theorem State.raiseFault_evtEn (s : State) (f : Fault) : (s.raiseFault f).evtEn = s.evtEn := by
  unfold State.raiseFault; split <;> rfl
@[simp] theorem State.raiseFault_errEn (s : State) (f : Fault) : (s.raiseFault f).errEn = s.errEn := by
  unfold State.raiseFault; split <;> rfl
@[simp] theorem State.raiseFault_irqMask (s : State) (f : Fault) : (s.raiseFault f).irqMask = s.irqMask := by
  unfold State.raiseFault; split <;> rfl
@[simp] theorem State.raiseFault_errSr1 (s : State) (f : Fault) : (s.raiseFault f).errSr1 = s.errSr1 := by
  unfold State.raiseFault; split <;> rfl
@[simp] theorem State.raiseFault_req (s : State) (f : Fault) : (s.raiseFault f).req = s.req := by
  unfold State.raiseFault; split <;> rfl
@[simp] theorem State.raiseFault_cmem (s : State) (f : Fault) : (s.raiseFault f).cmem = s.cmem := by
  unfold State.raiseFault; split <;> rfl
@[simp] theorem State.raiseFault_lent (s : State) (f : Fault) : (s.raiseFault f).lent = s.lent := by
  unfold State.raiseFault; split <;> rfl
@[simp] theorem State.raiseFault_evtLine (s : State) (f : Fault) : (s.raiseFault f).evtLine = s.evtLine := by
  unfold State.raiseFault; split <;> rfl
@[simp] theorem State.raiseFault_errLine (s : State) (f : Fault) : (s.raiseFault f).errLine = s.errLine := by
  unfold State.raiseFault; split <;> rfl
@[simp] theorem State.raiseFault_allocOk (s : State) (f : Fault) : (s.raiseFault f).allocOk = s.allocOk := by
  unfold State.raiseFault; split <;> rfl
@[simp] theorem State.raiseFault_port (s : State) (f : Fault) : (s.raiseFault f).port = s.port := by
  unfold State.raiseFault; split <;> rfl
@[simp] theorem State.raiseFault_turns (s : State) (f : Fault) : (s.raiseFault f).turns = s.turns := by
  unfold State.raiseFault; split <;> rfl
@[simp] theorem State.raiseFault_tick (s : State) (f : Fault) : (s.raiseFault f).tick = s.tick := by
  unfold State.raiseFault; split <;> rfl

/-- A marked fault is never overwritten (00_scope.md R15). -/
theorem State.raiseFault_of_some {s : State} {g : Fault} (h : s.fault = some g) (f : Fault) : s.raiseFault f = s := by
  simp [State.raiseFault, h]

/-! ### Slots -/

theorem State.slot_eq_getD (s : State) (r : Nat) : s.slot r = s.req.getD r .idle := by rfl

@[simp] theorem State.slot_log (s : State) (e : Event) (r : Nat) : (s.log e).slot r = s.slot r := by rfl
@[simp] theorem State.slot_goto (s : State) (ph : Phase) (r : Nat) : (s.goto ph).slot r = s.slot r := by rfl
@[simp] theorem State.slot_setX (s : State) (x : Regs) (r : Nat) : (s.setX x).slot r = s.slot r := by rfl
@[simp] theorem State.slot_setLock (s : State) (l : Lock) (r : Nat) : (s.setLock l).slot r = s.slot r := by rfl
@[simp] theorem State.slot_setDev (s : State) (d : Dev) (r : Nat) : (s.setDev d).slot r = s.slot r := by rfl
@[simp] theorem State.slot_setIrqMask (s : State) (b : Bool) (r : Nat) : (s.setIrqMask b).slot r = s.slot r := by rfl
@[simp] theorem State.slot_withPort (s : State) (p r : Nat) : (s.withPort p).slot r = s.slot r := by rfl
@[simp] theorem State.slot_unlend (s : State) (q r : Nat) : (s.unlend q).slot r = s.slot r := by rfl
@[simp] theorem State.slot_takeTurn (s : State) (r : Nat) : s.takeTurn.slot r = s.slot r := by rfl
@[simp] theorem State.slot_post (s : State) (r : Nat) : s.post.slot r = s.slot r := by rfl
@[simp] theorem State.slot_raiseFault (s : State) (f : Fault) (r : Nat) : (s.raiseFault f).slot r = s.slot r := by
  simp [State.slot]

/-- A slot that shows anything but idle belongs to a port that exists. -/
theorem State.lt_of_slot {s : State} {r : Nat} (h : s.slot r ≠ .idle) : r < s.req.length := by
  by_contra hr
  exact h (by simp [State.slot, List.getD_eq_getElem?_getD, List.getElem?_eq_none (Nat.le_of_not_lt hr)])

@[simp] theorem State.slot_setSlot_same {s : State} {r : Nat} (h : r < s.req.length) (v : Slot) :
    (s.setSlot r v).slot r = v := by
  simp [State.slot, h]

@[simp] theorem State.slot_setSlot_other {s : State} {r q : Nat} (h : r ≠ q) (v : Slot) :
    (s.setSlot r v).slot q = s.slot q := by
  simp [State.slot, List.getD_eq_getElem?_getD, h]

end Sys2Proof.Machine
end

