-- ==== Sys2Proof/Laws/Ops.lean ====
section
/-! SUPPORT. What each shared operation can do, said once. -/

namespace Sys2Proof.Machine

/-! ### Guards -/

theorem State.halted_eq_none {s : State} : s.halted = none ↔ s.fault = none ∧ paramsOk s.cfg = true := by
  unfold State.halted
  cases s.fault <;> simp

theorem guarded_of_live {s : State} (h : s.halted = none) (k : Result) : guarded s k = k := by
  simp [guarded, h]

theorem guarded_eq_next {s t : State} {k : Result} : guarded s k = .next t ↔ s.halted = none ∧ k = .next t := by
  unfold guarded
  cases h : s.halted <;> simp

theorem issuing_eq_next {v w : Word} {t u : State} : issuing v w t = .next u ↔ v = w ∧ t = u := by
  unfold issuing
  split <;> simp_all

@[simp] theorem issuing_self (v : Word) (t : State) : issuing v v t = .next t := by simp [issuing]

theorem dispatching_eq_next {s t : State} {code a0 a1 : Word} {k : State → State} :
    dispatching s code a0 a1 k = .next t ↔
      s.halted = none ∧ s.slot s.port = .submitted code a0 a1 ∧ t = k (s.log (.dispatch s.port code)) := by
  unfold dispatching
  rw [guarded_eq_next]
  split <;> simp_all [eq_comm]

@[simp] theorem State.halted_takeTurn (s : State) : s.takeTurn.halted = s.halted := rfl
@[simp] theorem State.halted_withPort (s : State) (r : Nat) : (s.withPort r).halted = s.halted := rfl

/-! ### The primitives and the composed operations, down to the small updates -/

@[simp] theorem State.regRead_eq (s : State) (r : Reg) (v : Word) : s.regRead r v = s.log (.regRead (regOffset r) v) := rfl

@[simp] theorem State.regWrite_eq (s : State) (r : Reg) (v : Word) :
    s.regWrite r v = s.log (.regWrite (regOffset r) v) := rfl

theorem State.complete_eq (s : State) (r : Nat) (st : Status) :
    s.complete r st = (s.setSlot r (.done st)).log (.complete r st) := rfl

theorem State.takeLock_eq (s : State) (r : Nat) :
    s.takeLock r = (((s.setLock (.held r)).setX { s.x with owner := r }).setSlot r .running).log (.lockAcq r) := rfl

theorem State.finish_eq (s : State) (st : Status) :
    s.finish st =
      ((((s.setLock .free).goto .idle).log (.lockRel s.x.owner)).setSlot s.x.owner (.done st)).log
        (.complete s.x.owner st) := rfl

theorem State.maskInterrupts_eq (s : State) :
    s.maskInterrupts = ((s.setX { s.x with irqSaved := s.irqMask }).setIrqMask true).log .maskSet := rfl

theorem State.restoreInterrupts_eq (s : State) :
    s.restoreInterrupts = (s.setIrqMask s.x.irqSaved).log (.maskRestore s.x.irqSaved) := rfl

theorem State.raiseBusError_eq (s : State) (v : Word) :
    s.raiseBusError v =
      (({ s with errSr1 := v } : State).setX { s.x with err := firstError s.x.err .ebus }).goto .txStop := rfl

theorem State.raiseTimeout_eq (s : State) :
    s.raiseTimeout =
      (s.restoreInterrupts.setX { s.x with err := firstError s.x.err .etimedout }).goto .txStop := rfl

theorem State.cmemByte_eq_some {s : State} {a : Word} {b : Byte} :
    s.cmemByte a = some b ↔ s.admits a.toNat 1 = true ∧ s.cmem.read a.toNat = b := by
  unfold State.cmemByte
  split <;> simp_all

theorem State.cmemByte_eq_none {s : State} {a : Word} : s.cmemByte a = none ↔ s.admits a.toNat 1 = false := by
  unfold State.cmemByte
  split <;> simp_all

/-- Somebody waits exactly when some slot waits. -/
theorem anyWaiting_iff {s : State} : anyWaiting s = true ↔ ∃ q code a0 a1, s.slot q = .waitLock code a0 a1 := by
  constructor
  · intro h
    obtain ⟨v, hv, hw⟩ := List.any_eq_true.mp h
    obtain ⟨q, hq, rfl⟩ := List.mem_iff_getElem.mp hv
    cases hs : s.req[q] with
    | waitLock code a0 a1 => exact ⟨q, code, a0, a1, by simp [State.slot, hq, hs]⟩
    | _ => simp [hs, Slot.isWaiting] at hw
  · rintro ⟨q, code, a0, a1, h⟩
    have hq : q < s.req.length := State.lt_of_slot (by simp [h])
    have he : s.req[q] = .waitLock code a0 a1 := by simpa [State.slot, hq] using h
    exact List.any_eq_true.mpr ⟨s.req[q], List.getElem_mem hq, by simp [he, Slot.isWaiting]⟩

/-- The counting signal never falls and never wraps (R79). -/
theorem State.post_sig_toNat (s : State) : s.post.sig.toNat = min (s.sig.toNat + 1) (2 ^ 32 - 1) := by
  have h := s.sig.isLt
  by_cases hs : s.sig = BitVec.allOnes 32
  · simp [State.post, hs]
  · have hne : s.sig.toNat ≠ 2 ^ 32 - 1 := by
      intro e
      exact hs (BitVec.eq_of_toNat_eq (by simpa using e))
    simp only [State.post, if_neg hs, BitVec.toNat_add]
    simp
    omega

/-- The lock taken: the holder, its slot, the event (R76). -/
theorem State.takeLock_spec (s : State) {r : Nat} (h : r < s.req.length) :
    (s.takeLock r).lock = .held r ∧ (s.takeLock r).x.owner = r ∧ (s.takeLock r).slot r = .running ∧
      (s.takeLock r).history = s.history ++ [.lockAcq r] := by
  simp [State.takeLock_eq, h]

/-- The last phase of a command: the lock free, the sequencer idle, the status on the port (R77). -/
theorem State.finish_spec (s : State) (st : Status) (h : s.x.owner < s.req.length) :
    (s.finish st).lock = .free ∧ (s.finish st).phase = .idle ∧ (s.finish st).slot s.x.owner = .done st ∧
      (s.finish st).history = s.history ++ [.lockRel s.x.owner, .complete s.x.owner st] := by
  simp [State.finish_eq, h]

end Sys2Proof.Machine
end

