-- ==== Sys2Proof/Laws/Step.lean ====
section
/-! SUPPORT. What a step can do, said once: a step of a machine that is not stopped is the effect of the move whose turn it is,
a plain function of the state. Later proofs split this effect and never unfold step. -/

namespace Sys2Proof.Machine

/-- The effect of the sequencer's phase (40, 41, 42: one line per phase rule). -/
def phaseEffect (v : Word) (s : State) : State :=
  match s.phase with
  | .idle => s
  | .sfRdCr1 => sfRdCr1 v s
  | .sfDisable => sfDisable s
  | .sfWrCcr => sfWrCcr s
  | .sfWrTrise => sfWrTrise s
  | .sfRestore => sfRestore s
  | .sfrRdCr1 => sfrRdCr1 v s
  | .sfrDisable => sfrDisable s
  | .sfrRestore => sfrRestore s
  | .opWrCr2 => opWrCr2 s
  | .opRdCr1 => opRdCr1 v s
  | .opEnable => opEnable s
  | .clRdCr1 => clRdCr1 v s
  | .clDisable => clDisable s
  | .txFetch => txFetch s
  | .txStart => txStart s
  | .txStartSt => txStartSt v s
  | .txAddr => txAddr s
  | .txAddrSt => txAddrSt v s
  | .txAddrClr => txAddrClr v s
  | .txData => txData s
  | .txRdByte => txRdByte v s
  | .txWrPoll => txWrPoll v s
  | .txWrByte => txWrByte s
  | .txNext => txNext s
  | .txStop => txStop s
  | .txDone => txDone s

/-- The effect of a command taken from a port (42_device_surface.md R201). -/
def commandEffect (code a0 a1 : Word) (s : State) : State :=
  if code = 1 then openCase s
  else if code = 2 then closeCase s
  else if code = 3 then transferCase a0 a1 s
  else if code = 4 then setFrequencyCase a0 a1 s
  else s.complete s.port .einval

/-- The effect of the dispatcher's move. -/
def dispatchEffect (r : Nat) (s : State) : State :=
  match s.slot r with
  | .submitted code a0 a1 => commandEffect code a0 a1 ((s.withPort r).log (.dispatch r code))
  | _ => s

/-- The effect of a move. -/
def moveEffect (m : Move) (s : State) : State :=
  match m with
  | .submit r code a0 a1 regions => submit r code a0 a1 regions s
  | .collect r => collect r s
  | .callerWrite a b => callerWrite a b s
  | .dispatch r => dispatchEffect r s
  | .acquire r => acquire r s
  | .sequencer v => phaseEffect v s
  | .evtHandler => evtHandler s
  | .errHandler => errHandler s

/-! ### What the sequencer decodes is what its phase issues -/

theorem disableWord_and_pe (p : Params) (v : Word) : disableWord p v &&& p.cr1Pe = 0 := by
  unfold disableWord
  ext i hi
  simp

theorem enableWord_and_pe (p : Params) (v : Word) : enableWord p v &&& p.cr1Pe = p.cr1Pe := by
  unfold enableWord
  ext i hi
  simp
  tauto

theorem addressWord_high (a : BitVec 7) (d : BitVec 1) : (addressWord a d).extractLsb' 8 24 = 0 := by
  revert a d; decide

theorem addressWord_addr (a : BitVec 7) (d : BitVec 1) : (addressWord a d).extractLsb' 1 7 = a := by
  revert a d; decide

theorem addressWord_rd (a : BitVec 7) (d : BitVec 1) : (addressWord a d).extractLsb' 0 1 = d := by
  revert a d; decide

theorem dataWord_high (b : Byte) : (dataWord b).extractLsb' 8 24 = 0 := by revert b; decide

theorem dataWord_low (b : Byte) : (dataWord b).extractLsb' 0 8 = b := by revert b; decide

theorem sequencerStep_spec {s : State} (h : s.halted = none) (v : Word) :
    sequencerStep v s = .next (phaseEffect v s) := by
  unfold sequencerStep State.regOp
  cases hp : s.phase <;>
    simp [phaseRow, rowOp, rowAccess, decodeRegOp, decodeRowValue, State.busValue, phaseEffect, silentPhase, hp,
      disableWord_and_pe, enableWord_and_pe, addressWord_high, addressWord_addr, addressWord_rd, dataWord_high,
      dataWord_low, exec, execUopStart, execUopStop, execUopCr1Disable, execUopCr1Restore, execUopCr1Enable,
      execUopCr1Read, execUopCr2Init, execUopAddr, execUopWdata, execUopRdata, execUopStatus, execUopClraddr,
      execUopCcrSet, execUopTriseSet, guarded_of_live h]
  cases hb : s.cmemByte (byteAddress s.x) <;> simp [State.payload, hb]

theorem dispatchPort_spec {s : State} (h : s.halted = none) (r : Nat) :
    dispatchPort r s = .next (dispatchEffect r s) := by
  unfold dispatchPort dispatchEffect
  cases hs : s.slot r with
  | submitted code a0 a1 =>
    have hl : (s.withPort r).halted = none := h
    simp only [decodeCommand, commandEffect]
    split_ifs with h1 h2 h3 h4
    · simp [exec, execCmdOpen, dispatching, guarded_of_live hl, hs, h1]
    · simp [exec, execCmdClose, dispatching, guarded_of_live hl, hs, h2]
    · simp [exec, execCmdExecuteTransfer, dispatching, guarded_of_live hl, hs, h3]
    · simp [exec, execCmdSetFrequency, dispatching, guarded_of_live hl, hs, h4]
    · have hc : isCommandCode code = false := by simpa [isCommandCode] using ⟨⟨⟨h1, h2⟩, h3⟩, h4⟩
      simp [exec, execCmdUnrecognised, hc, dispatching, guarded_of_live hl, hs]
  | idle => rfl
  | waitLock _ _ _ => rfl
  | running => rfl
  | done _ => rfl

theorem move_spec {s : State} (h : s.halted = none) (m : Move) : move m s = .next (moveEffect m s) := by
  cases m with
  | dispatch r => exact dispatchPort_spec h r
  | sequencer v => exact sequencerStep_spec h v
  | submit | collect | callerWrite | acquire | evtHandler | errHandler => rfl

/-- A step of a machine that is not stopped is the effect of the move whose turn it is. -/
theorem step_of_live {s : State} (h : s.halted = none) : step s = .next (moveEffect s.turn.move s.takeTurn) := by
  rw [step, guarded_of_live h, move_spec (by simpa using h)]

/-- A stopped machine answers its fault (R245, R246). -/
theorem step_of_halted {s : State} {f : Fault} (h : s.halted = some f) : step s = .fault f := by
  simp [step, guarded, h]

/-- Everything a step that answers a next state did. -/
theorem step_eq_next {s t : State} :
    step s = .next t ↔ s.halted = none ∧ t = moveEffect s.turn.move s.takeTurn := by
  cases h : s.halted with
  | none => rw [step_of_live h]; simp [eq_comm]
  | some f => rw [step_of_halted h]; simp

end Sys2Proof.Machine
end

