-- ==== Sys2Proof/Laws/PerInstr.lean ====
section
/-! SUPPORT. One family about the instructions as syntax: a well-formed instruction's words decode to it again, in the context
of a phase that issues its row. -/

namespace Sys2Proof.Laws.RoundTrip

open Sys2Proof Sys2Proof.Machine

/-- The words of the instruction decode to it: a command in any context, a micro-operation in that of a phase that issues
its row (30_encoding.md R103, R114). -/
def Statement (i : Instr) : Prop :=
  ∀ (p : Params) (ph : Phase), i.wellFormed p = true → (i.row = none ∨ phaseRow ph = i.row) →
    decodeRaw p (some ph) (encode p i) = .ok i

/-- A micro-operation of row `row` whose value is read back as `i`. -/
theorem of_row {i : Instr} {row : MicroRow} {v : Word} (hrow : i.row = some row)
    (henc : ∀ p, encode p i = .regop (rowOp row (v))) (hval : ∀ p, i.wellFormed p = true → decodeRowValue p row v = .ok i) :
    Statement i := by
  intro p ph hwf hph
  have hr : phaseRow ph = some row := by simpa [hrow] using hph
  rw [henc p]
  simp [decodeRaw, decodeRegOp, hr, rowOp, hval p hwf]

theorem cmdOpen (a0 a1 : Word) : Statement (.cmdOpen a0 a1) := fun _ _ _ _ => rfl

theorem cmdClose (a0 a1 : Word) : Statement (.cmdClose a0 a1) := fun _ _ _ _ => rfl

theorem cmdExecuteTransfer (messages count : Word) : Statement (.cmdExecuteTransfer messages count) :=
  fun _ _ _ _ => rfl

theorem cmdSetFrequency (hz a1 : Word) : Statement (.cmdSetFrequency hz a1) := fun _ _ _ _ => rfl

theorem cmdUnrecognised (code a0 a1 : Word) : Statement (.cmdUnrecognised code a0 a1) := by
  intro p ph hwf _
  simp only [Instr.wellFormed, isCommandCode, Bool.not_eq_true', Bool.or_eq_false_iff, beq_eq_false_iff_ne] at hwf
  obtain ⟨⟨⟨h1, h2⟩, h3⟩, h4⟩ := hwf
  simp only [encode, decodeRaw, decodeCommand, if_neg h1, if_neg h2, if_neg h3, if_neg h4]

theorem uopStart : Statement .uopStart := by
  intro p ph _ hph
  have hr : phaseRow ph = some .start := by simpa [Instr.row] using hph
  simp [encode, decodeRaw, decodeRegOp, hr, rowOp, decodeRowValue]

theorem uopStop : Statement .uopStop := by
  intro p ph _ hph
  have hr : phaseRow ph = some .stop := by simpa [Instr.row] using hph
  simp [encode, decodeRaw, decodeRegOp, hr, rowOp, decodeRowValue]

theorem uopCr1Disable (v : Word) : Statement (.uopCr1Disable v) :=
  of_row (v := v) rfl (fun _ => rfl) fun p h => by
    simp only [Instr.wellFormed, beq_iff_eq] at h
    simp only [decodeRowValue, if_pos h]

theorem uopCr1Restore (v : Word) : Statement (.uopCr1Restore v) := of_row (v := v) rfl (fun _ => rfl) fun _ _ => rfl

theorem uopCr1Enable (v : Word) : Statement (.uopCr1Enable v) :=
  of_row (v := v) rfl (fun _ => rfl) fun p h => by
    simp only [Instr.wellFormed, beq_iff_eq] at h
    simp only [decodeRowValue, if_pos h]

theorem uopCr1Read (v : Word) : Statement (.uopCr1Read v) := of_row (v := v) rfl (fun _ => rfl) fun _ _ => rfl

theorem uopCr2Init (v : Word) : Statement (.uopCr2Init v) := of_row (v := v) rfl (fun _ => rfl) fun _ _ => rfl

theorem uopAddr (addr : BitVec 7) (rd : BitVec 1) : Statement (.uopAddr addr rd) :=
  of_row (v := addressWord addr rd) rfl (fun _ => rfl) fun p _ => by
    simp [decodeRowValue, addressWord_high, addressWord_addr, addressWord_rd]

theorem uopWdata (b : Byte) : Statement (.uopWdata b) :=
  of_row (v := dataWord b) rfl (fun _ => rfl) fun p _ => by simp [decodeRowValue, dataWord_high, dataWord_low]

theorem uopRdata (v : Word) : Statement (.uopRdata v) := of_row (v := v) rfl (fun _ => rfl) fun _ _ => rfl

theorem uopStatus (v : Word) : Statement (.uopStatus v) := of_row (v := v) rfl (fun _ => rfl) fun _ _ => rfl

theorem uopClraddr (v : Word) : Statement (.uopClraddr v) := of_row (v := v) rfl (fun _ => rfl) fun _ _ => rfl

theorem uopCcrSet (v : Word) : Statement (.uopCcrSet v) := of_row (v := v) rfl (fun _ => rfl) fun _ _ => rfl

theorem uopTriseSet (v : Word) : Statement (.uopTriseSet v) := of_row (v := v) rfl (fun _ => rfl) fun _ _ => rfl

end Sys2Proof.Laws.RoundTrip
end

