-- ==== Sys2Proof/Laws/Registry.lean ====
section
/-! SUPPORT. What a step of a registry can do, and what its condition says. -/

namespace Sys2Proof.Machine

/-- No two instances, in order, overlap. -/
theorem Registry.apart_iff {ms : Registry} :
    Registry.apart ms = true ↔ List.Pairwise (fun s t => rangesApart s.cfg t.cfg = true) ms := by
  induction ms with
  | nil => simp [Registry.apart]
  | cons s rest ih => simp [Registry.apart, ih]

/-- Everything a step of a registry that answers a next registry did. -/
theorem Registry.step_eq_next {ms ns : Registry} {k : Nat} :
    Registry.step ms k = .next ns ↔
      Registry.apart ms = true ∧
        ((ms[k]? = none ∧ ns = ms) ∨ ∃ s t, ms[k]? = some s ∧ Machine.step s = .next t ∧ ns = ms.set k t) := by
  unfold Registry.step Registry.stepInstance
  cases Registry.apart ms with
  | false => simp
  | true =>
    cases hk : ms[k]? with
    | none => simp [eq_comm]
    | some s => cases hs : Machine.step s <;> simp [hs, eq_comm]

end Sys2Proof.Machine
end

