-- ==== Sys2Proof/Machine/Program.lean ====
section
/-! DEFINITION. The program lines of 30_encoding.md R116 as data, and the turns a line stands for: the previous status is
collected, caller memory holds the descriptors and buffers, and the command is submitted. -/

namespace Sys2Proof.Machine

/-- A message of a program line (R116): a write with its bytes, a read with its length. The line's author also says
where the buffer lies. -/
inductive Msg where
  | w (addr : BitVec 7) (bytes : List Byte) (buf : Word)
  | r (addr : BitVec 7) (len buf : Word)
deriving DecidableEq, Repr

/-- A program line (R116); a transfer also says where its descriptors lie. A raw command line also says which regions it
lends: R116 is silent on that (DESIGN CHOICE, log 29). -/
inductive ProgramLine where
  | openDev (r : Nat)
  | close (r : Nat)
  | setFrequency (r : Nat) (hz : Word)
  | executeTransfer (r : Nat) (messages : Word) (msgs : List Msg)
  | cmd (r : Nat) (code a0 a1 : Word) (regions : List (Nat × Nat))
deriving DecidableEq, Repr

/-- The descriptor of a message (R107). -/
def Msg.descriptor : Msg → Descriptor
  | .w addr bytes buf => { addr := addr, rd := 0, len := BitVec.ofNat 32 bytes.length, buf := buf }
  | .r addr len buf => { addr := addr, rd := 1, len := len, buf := buf }

/-- The bytes a message has in its buffer before the call. -/
def Msg.payload : Msg → List Byte
  | .w _ bytes _ => bytes
  | .r _ _ _ => []

/-- The buffer region of a message. -/
def Msg.region (m : Msg) : Nat × Nat := (m.descriptor.buf.toNat, m.descriptor.len.toNat)

/-- A quiet turn: both lines low, allocation succeeds. -/
def quietTurn (m : Move) : Turn := { move := m, evtLine := false, errLine := false, allocOk := true }

/-- The caller writes consecutive bytes. -/
def writeTurns : Word → List Byte → List Turn
  | _, [] => []
  | a, b :: bs => quietTurn (.callerWrite a b) :: writeTurns (a + 1) bs

/-- The descriptors of a sequence, one after another (10_state.md R46). -/
def descriptorBytes (msgs : List Msg) : List Byte := msgs.flatMap fun m => m.descriptor.toBytes

/-- The turns of a line (R116). A transfer line lends its descriptors and its buffers, a raw command line the regions its
author gives, the other lines none (DESIGN CHOICE, log 29). The argument words that a command ignores (R102) are submitted as
0 (DESIGN CHOICE, log 29). -/
def ProgramLine.turns : ProgramLine → List Turn
  | .openDev r => [quietTurn (.collect r), quietTurn (.submit r 1 0 0 [])]
  | .close r => [quietTurn (.collect r), quietTurn (.submit r 2 0 0 [])]
  | .setFrequency r hz => [quietTurn (.collect r), quietTurn (.submit r 4 hz 0 [])]
  | .executeTransfer r a msgs =>
    [quietTurn (.collect r)] ++ writeTurns a (descriptorBytes msgs)
      ++ msgs.flatMap (fun m => writeTurns m.descriptor.buf m.payload)
      ++ [quietTurn (.submit r 3 a (BitVec.ofNat 32 msgs.length)
          ((a.toNat, 12 * msgs.length) :: msgs.map Msg.region))]
  | .cmd r code a0 a1 regions => [quietTurn (.collect r), quietTurn (.submit r code a0 a1 regions)]

end Sys2Proof.Machine
end

