-- ==== Sys2Proof/Machine/Stub.lean ====
section
/-! DEFINITION. The simulator oracle of 20_memory.md R71: an untrusted, deterministic stand-in for the peripheral, for tests
only. It chooses the sequencer's turn; the machine is unchanged. -/

namespace Sys2Proof.Machine

/-- CR1, CR2, CCR, TRISE store what was written; SR1, SR2, DR answer from a script (R71). -/
structure Stub where
  cr1 : Word
  cr2 : Word
  ccr : Word
  trise : Word
  sr1 : List Word
  sr2 : List Word
  dr : List Word
deriving DecidableEq, Repr

/-- The stub before any access (R71). -/
def Stub.initial (sr1 sr2 dr : List Word) : Stub :=
  { cr1 := 0, cr2 := 0, ccr := 0, trise := 0, sr1 := sr1, sr2 := sr2, dr := dr }

/-- The answer to a read; none where a script has run out, and the test is void (R71). -/
def Stub.answer (st : Stub) (off : BitVec 8) : Option (Word × Stub) :=
  if off = regOffset .cr1 then some (st.cr1, st)
  else if off = regOffset .cr2 then some (st.cr2, st)
  else if off = regOffset .ccr then some (st.ccr, st)
  else if off = regOffset .trise then some (st.trise, st)
  else if off = regOffset .sr1 then
    match st.sr1 with
    | [] => none
    | v :: vs => some (v, { st with sr1 := vs })
  else if off = regOffset .sr2 then
    match st.sr2 with
    | [] => none
    | v :: vs => some (v, { st with sr2 := vs })
  else if off = regOffset .dr then
    match st.dr with
    | [] => none
    | v :: vs => some (v, { st with dr := vs })
  else none

/-- A write stored, where the stub stores it (R71). -/
def Stub.store (st : Stub) (off : BitVec 8) (v : Word) : Stub :=
  if off = regOffset .cr1 then { st with cr1 := v }
  else if off = regOffset .cr2 then { st with cr2 := v }
  else if off = regOffset .ccr then { st with ccr := v }
  else if off = regOffset .trise then { st with trise := v }
  else st

/-- The answer the stub gives to the sequencer's next access, and the stub after it. -/
def Stub.serve (st : Stub) (s : State) : Option (Word × Stub) :=
  match s.regOp 0 with
  | none => some (0, st)
  | some op => if op.w then some (0, st.store op.off op.val) else st.answer op.off

/-- `n` steps of the sequencer against the stub, the input levels as they are; none where a script runs out or a step gives
no next state. -/
def Stub.runSequencer : Nat → Stub → State → Option (Stub × State)
  | 0, st, s => some (st, s)
  | n + 1, st, s =>
    match st.serve s with
    | none => none
    | some (v, st') =>
      match step { s with turns := [s.turnFor (.sequencer v)] } with
      | .next s' => Stub.runSequencer n st' s'
      | .fault _ => none
      | .refused _ => none

end Sys2Proof.Machine
end

