-- ==== Sys2Proof/Tests/Slice0.lean ====
section
/-! SUPPORT. Tests on fixed values. Expected results come from spec/: the vectors of 95_test_vectors.md (V, P) and the encodings of
30_encoding.md. The second half holds one witness for every statement that has hypotheses. -/

namespace Sys2Proof.Tests

open Sys2Proof Sys2Proof.Machine Sys2Proof.Safety

/-! ### Small states -/

/-- A turn with both lines low and allocation possible. -/
def turn (m : Move) : Turn := { move := m, evtLine := false, errLine := false, allocOk := true }

/-- A command on port 0 of a device in state `d`, and the dispatcher's turn. -/
def onPort (d : Dev) (code a0 a1 : Word) : State :=
  { State.reset with dev := d, req := [.submitted code a0 a1, .idle], turns := [turn (.dispatch 0)] }

/-- The sequencer in phase `ph` for requester 0, who has lent 64 bytes at 0x100; its turn is next, a read answered `v`. -/
def atPhase (ph : Phase) (x : Regs) (v : Word) : State :=
  { State.reset with
    phase := ph
    x := x
    dev := .opened
    lock := .held 0
    req := [.running, .idle]
    history := [.lockAcq 0]
    lent := [{ owner := 0, base := 0x100, size := 64 }]
    turns := [turn (.sequencer v)] }

/-- A field of the next state. -/
def after {α : Type} (r : Result) (f : State → α) : Option α :=
  match r with
  | .next s => some (f s)
  | .fault _ => none
  | .refused _ => none

/-- The events the next state has and `s` has not. -/
def newEvents (s : State) (r : Result) : Option (List Event) := after r fun t => t.history.drop s.history.length

/-- The decoded instruction, if any. -/
def decoded (p : Params) (ctx : Option Phase) (i : Instr) : Option Instr :=
  match decode p ctx (encode p i).toBytes with
  | .ok j => some j
  | .error _ => none

/-! ### WellFormed refuses -/

theorem test_wellFormed_refuses :
    (Instr.cmdUnrecognised 1 0 0).wellFormed Params.default = false ∧
    (Instr.cmdUnrecognised 2 0 0).wellFormed Params.default = false ∧
    (Instr.cmdUnrecognised 3 0 0).wellFormed Params.default = false ∧
    (Instr.cmdUnrecognised 4 0 0).wellFormed Params.default = false ∧
    (Instr.uopCr1Disable 0x401).wellFormed Params.default = false ∧
    (Instr.uopCr1Enable 0x400).wellFormed Params.default = false := by decide

theorem test_wellFormed_accepts :
    (Instr.cmdUnrecognised 5 0x00010001 0xFFFFFFFF).wellFormed Params.default = true ∧
    (Instr.uopCr1Disable 0x400).wellFormed Params.default = true ∧
    (Instr.uopCr1Enable 0x401).wellFormed Params.default = true := by decide

/-! ### Decoding: words written out from the encodings of R103, R104, R114 -/

/-- The five command rows (V39 to V41); the words after the first are ARG0 and ARG1. -/
theorem test_decode_commands :
    decodeTableWord 32 0b00000000000000000000000000000001 = some (.cmdOpen 0 0) ∧
    decodeTableWord 32 0b00000000000000000000000000000010 = some (.cmdClose 0 0) ∧
    decodeTableWord 96 0x00000002_20000000_00000003 = some (.cmdExecuteTransfer 0x20000000 2) ∧
    decodeTableWord 96 0x00000000_00061A80_00000004 = some (.cmdSetFrequency 400000 0) ∧
    decodeTableWord 96 0xFFFFFFFF_00010001_00000005 = some (.cmdUnrecognised 5 0x00010001 0xFFFFFFFF) ∧
    decodeTableWord 32 0b00000001000000000000000000000000 = some (.cmdUnrecognised 0x01000000 0 0) := by decide

/-- The CR1 and CR2 rows a monitor can name: direction, offset, value, left to right (V42 to V44). -/
theorem test_decode_control :
    decodeTableWord 48 0b1_00000000_00000000000000000000000100000001 = some .uopStart ∧
    decodeTableWord 48 0b1_00000000_00000000000000000000001000000001 = some .uopStop ∧
    decodeTableWord 48 0b1_00000000_00000000000000000000010000000000 = some (.uopCr1Disable 0x400) ∧
    decodeTableWord 48 0b1_00000000_00000000000000000000010000000001 = some (.uopCr1Enable 0x401) ∧
    decodeTableWord 48 0b0_00000000_10000000000000000000000000000001 = some (.uopCr1Read 0x80000001) ∧
    decodeTableWord 48 0b1_00000100_00000000000000000000000000101010 = some (.uopCr2Init 42) := by decide

/-- The data, status and timing rows (V31, V37, V2). -/
theorem test_decode_data :
    decodeTableWord 48 0b1_00010000_00000000000000000000000010100001 = some (.uopAddr 0x50 1) ∧
    decodeTableWord 48 0b1_00010000_00000000000000000000000010100000 = some (.uopAddr 0x50 0) ∧
    decodeTableWord 48 0b0_00010000_00000000000000000001001011001101 = some (.uopRdata 0x12CD) ∧
    decodeTableWord 48 0b0_00010100_00000000000000000000010010000010 = some (.uopStatus 0x482) ∧
    decodeTableWord 48 0b0_00011000_00000000000000000000000000000111 = some (.uopClraddr 7) ∧
    decodeTableWord 48 0b1_00011100_00000000000000001000000000100011 = some (.uopCcrSet 0x8023) ∧
    decodeTableWord 48 0b1_00100000_00000000000000000000000000001101 = some (.uopTriseSet 13) := by decide

/-- The two rows that the issuing phase names: CR1_RESTORE and WDATA (V38), and an ADDR tuple read in the write loop. -/
theorem test_decode_in_context :
    (decodeRegOp Params.default (some .sfRestore) { w := true, off := 0x00, val := 0x401 }).toOption
      = some (.uopCr1Restore 0x401) ∧
    (decodeRegOp Params.default (some .txWrByte) { w := true, off := 0x10, val := 0xDE }).toOption
      = some (.uopWdata 0xDE) ∧
    (decodeRegOp Params.default (some .txAddr) { w := true, off := 0x10, val := 0xFF }).toOption
      = some (.uopAddr 0x7F 1) := by decide

/-- No row: a write to SR1 or OAR1, a read of CCR, a DR word with a high bit, a set padding bit, a wrong phase. -/
theorem test_decode_rejects :
    decodeTableWord 48 0x11400000000 = none ∧ decodeTableWord 48 0x10800000000 = none ∧
    decodeTableWord 48 0x01C00000000 = none ∧ decodeTableWord 48 0x11000000100 = none ∧
    decodeTableWord 48 0x20000000000 = none ∧
    (decodeRegOp Params.default (some .txData) { w := true, off := 0x10, val := 0 }).toOption = none ∧
    (decodeRegOp Params.default (some .txAddr) { w := false, off := 0x10, val := 0 }).toOption = none := by decide

/-- V35, V36, and the byte image of the note on V35. -/
theorem test_descriptor :
    Descriptor.ofWords 0xFFFEFFD0 2 3 = { addr := 0x50, rd := 0, len := 2, buf := 3 } ∧
    Descriptor.ofWords 0x00010050 2 3 = { addr := 0x50, rd := 1, len := 2, buf := 3 } ∧
    (Descriptor.mk 0x50 1 2 0x20000200).toBytes = [0x50, 0, 1, 0, 2, 0, 0, 0, 0, 2, 0, 0x20] := by decide

/-! ### The commands, one step -/

/-- V51, V52, V53. -/
theorem test_open_rejected :
    (let s := { onPort .opened 1 0 0 with cfg := { Params.default with cfgAttached := false } }
     newEvents s (step s)) = some [.dispatch 0 1, .complete 0 .einval] ∧
    (let s := { onPort .closed 1 0 0 with turns := [{ turn (.dispatch 0) with allocOk := false }] }
     newEvents s (step s)) = some [.dispatch 0 1, .complete 0 .enomem] ∧
    newEvents (onPort .opened 1 0 0) (step (onPort .opened 1 0 0)) = some [.dispatch 0 1, .complete 0 .einval] := by
  decide

theorem test_open_accepted :
    (let s := { onPort .closed 1 0xFFFFFFFF 7 with sig := 9 }
     after (step s) fun t => (t.dev, t.lock, t.sig, t.slot 0, t.phase, t.x.op))
      = some (.opened, .held 0, 0, .running, .opWrCr2, 1) := by decide

/-- V55, V56. -/
theorem test_close_rejected :
    newEvents (onPort .closed 2 0 0) (step (onPort .closed 2 0 0)) = some [.dispatch 0 2, .complete 0 .einval] ∧
    (let s := { onPort .opened 2 0 0 with lock := .held 1 }
     newEvents s (step s)) = some [.dispatch 0 2, .fault .closeWhileBusy] := by decide

theorem test_close_accepted :
    after (step (onPort .opened 2 0 0)) (fun t => (t.dev, t.lock, t.slot 0, t.phase))
      = some (.opened, .held 0, .running, .clRdCr1) := by decide

/-- V20, V28. -/
theorem test_transfer_at_once :
    newEvents (onPort .opened 3 0xDEADBEEF 0) (step (onPort .opened 3 0xDEADBEEF 0))
      = some [.dispatch 0 3, .complete 0 .ok] ∧
    newEvents (onPort .closed 3 0 0) (step (onPort .closed 3 0 0)) = some [.dispatch 0 3, .complete 0 .einval] := by
  decide

theorem test_transfer_waits :
    after (step (onPort .opened 3 0x20000000 2)) (fun t => (t.slot 0, t.lock, t.phase))
      = some (.waitLock 3 0x20000000 2, .free, .idle) := by decide

/-- V6, V10, V17, V19b. -/
theorem test_setFrequency_rejected :
    newEvents (onPort .opened 4 400001 0) (step (onPort .opened 4 400001 0))
      = some [.dispatch 0 4, .complete 0 .einval] ∧
    newEvents (onPort .opened 4 0 0) (step (onPort .opened 4 0 0)) = some [.dispatch 0 4, .fault .setFreqZeroHz] ∧
    newEvents (onPort .opened 4 0xFFFFFFFF 0) (step (onPort .opened 4 0xFFFFFFFF 0))
      = some [.dispatch 0 4, .complete 0 .einval] ∧
    newEvents (onPort .closed 4 0 0) (step (onPort .closed 4 0 0)) = some [.dispatch 0 4, .complete 0 .einval] := by
  decide

theorem test_setFrequency_waits :
    after (step (onPort .opened 4 400000 0)) (fun t => t.slot 0) = some (.waitLock 4 400000 0) := by decide

/-- V57, V40. -/
theorem test_unrecognised :
    newEvents (onPort .closed 7 0 0) (step (onPort .closed 7 0 0)) = some [.dispatch 0 7, .complete 0 .einval] ∧
    newEvents (onPort .opened 0 0 0) (step (onPort .opened 0 0 0)) = some [.dispatch 0 0, .complete 0 .einval] := by
  decide

/-! ### The micro-operations, one step -/

/-- V42, V43. -/
theorem test_start_stop :
    newEvents (atPhase .txStart .reset 0) (step (atPhase .txStart .reset 0)) = some [.regWrite 0x00 0x101] ∧
    newEvents (atPhase .txStop .reset 0) (step (atPhase .txStop .reset 0)) = some [.regWrite 0x00 0x201] := by decide

/-- V19: other bits of CR1 preserved, then the word restored whole. -/
theorem test_cr1_disable_and_restore :
    (let s := atPhase .sfDisable { Regs.reset with old := 0x401, hz := 100000 } 0
     newEvents s (step s)) = some [.regWrite 0x00 0x400] ∧
    (let s := atPhase .sfRestore { Regs.reset with old := 0x401, ret := .ioctl } 0
     newEvents s (step s)) = some [.regWrite 0x00 0x401, .lockRel 0, .complete 0 .ok] := by decide

/-- V54. -/
theorem test_cr1_disable_closes :
    (let s := atPhase .clDisable { Regs.reset with tmp := 0x201 } 0
     after (step s) fun t => (t.dev, t.lock, t.slot 0, t.history.getLast?))
      = some (.closed, .free, .done .ok, some (.complete 0 .ok)) := by decide

theorem test_cr1_read_and_enable :
    (let s := atPhase .opRdCr1 .reset 0x400
     after (step s) fun t => (t.x.tmp, t.phase)) = some (0x400, .opEnable) ∧
    (let s := atPhase .opEnable { Regs.reset with tmp := 0x400 } 0
     newEvents s (step s)) = some [.regWrite 0x00 0x401, .lockRel 0, .complete 0 .ok] := by decide

/-- V44, and the internal call at the standard ceiling (R206). -/
theorem test_cr2_init :
    newEvents (atPhase .opWrCr2 .reset 0) (step (atPhase .opWrCr2 .reset 0)) = some [.regWrite 0x04 0x2A] ∧
    after (step (atPhase .opWrCr2 .reset 0)) (fun t => (t.x.hz, t.x.ret)) = some (100000, .opening) := by decide

/-- V1, V2, V5, V7, V8, V9: FAST, DIV, TR and the CCR word. -/
theorem test_timing :
    (let f (clk hz : Word) :=
       let p := { Params.default with inputClockHz := clk }
       let x := computeTiming p { Regs.reset with hz := hz }
       (x.fast, x.div, x.tr, ccrWord p x)
     [f 42000000 100000, f 42000000 400000, f 30000000 100001, f 1000000 400000, f 42000000 1, f 4294967295 100000])
      = [(false, 140, 43, 0x8C), (true, 35, 13, 0x8023), (true, 99, 10, 0x8063), (true, 0, 1, 0x8000),
         (false, 14000000, 43, 0x00D59F80), (false, 14316, 4295, 0x37EC)] := by decide

theorem test_timing_writes :
    (let s := atPhase .sfWrCcr { Regs.reset with fast := true, div := 35 } 0
     newEvents s (step s)) = some [.regWrite 0x1C 0x8023] ∧
    (let s := atPhase .sfWrTrise { Regs.reset with tr := 13 } 0
     newEvents s (step s)) = some [.regWrite 0x20 0x0D] := by decide

/-- V31, V32, V34. -/
theorem test_addr :
    (let f (a : BitVec 7) (d : BitVec 1) :=
       let s := atPhase .txAddr { Regs.reset with addr := a, rd := d } 0
       newEvents s (step s)
     [f 0x50 1, f 0x7F 1, f 0x3C 0])
      = [some [.regWrite 0x10 0xA1], some [.regWrite 0x10 0xFF], some [.regWrite 0x10 0x78]] := by decide

/-- V23, V24: each error bit alone aborts, bits outside the mask do not. -/
theorem test_status_after_start :
    (let f (e : Word) := after (step (atPhase .txStartSt .reset e)) fun t => (t.phase, t.x.err, t.errSr1)
     [f 0x0100, f 0x4000, f 0x2000, f 0x8000])
      = [some (.txStop, .ebus, 0x0100), some (.txStop, .ebus, 0x4000), some (.txAddr, .ok, 0),
         some (.txAddr, .ok, 0)] := by decide

/-- V26, V27: an error bit in a poll is ignored; the last poll of a finite bound times out. -/
theorem test_status_poll :
    (let s := { atPhase .txWrPoll { Regs.reset with len := 1 } 0x0400 with irqMask := true }
     after (step s) fun t => (t.phase, t.x.err, t.irqMask)) = some (.txWrPoll, .ok, true) ∧
    (let s := { atPhase .txWrPoll { Regs.reset with len := 1, polls := 2 } 0 with
       irqMask := true, cfg := { Params.default with txePollLimit := some 3 } }
     after (step s) fun t => (t.phase, t.x.err, t.irqMask)) = some (.txStop, .etimedout, false) := by decide

theorem test_clraddr :
    (let s := atPhase .txAddrClr .reset 7
     newEvents s (step s)) = some [.regRead 0x18 7] := by decide

/-- V37, V29. -/
theorem test_rdata :
    (let s := atPhase .txRdByte { Regs.reset with rd := 1, len := 2, buf := 0x100 } 0x12CD
     after (step s) fun t => (t.cmem, t.phase, t.x.bi)) = some ([(0x100, 0xCD)], .txRdByte, 1) ∧
    (let s := atPhase .txRdByte { Regs.reset with rd := 1, len := 1, buf := 0x140 } 5
     newEvents s (step s)) = some [.regRead 0x10 5, .fault .callerMemRefused] := by decide

/-- V38, and the mask restored after the last byte (V25). -/
theorem test_wdata :
    (let s := { atPhase .txWrByte { Regs.reset with len := 1, buf := 0x100 } 0 with
       irqMask := true, cmem := [(0x100, 0xDE)] }
     newEvents s (step s)) = some [.cMemRead 0x100 1 0xDE, .regWrite 0x10 0xDE, .maskRestore false] := by decide

/-! ### The other agents -/

/-- P1: the first descriptor of the example, and a misaligned pointer. -/
theorem test_fetch :
    (let s := { atPhase .txFetch { Regs.reset with msgs := 0x100, cnt := 1 } 0 with
       cmem := [(0x100, 0x50), (0x102, 1), (0x104, 2), (0x109, 2), (0x10B, 0x20)] }
     after (step s) fun t => (t.x.addr, t.x.rd, t.x.len, t.x.buf, t.phase))
      = some (0x50, 1, 2, 0x20000200, .txStart) ∧
    (let s := atPhase .txFetch { Regs.reset with msgs := 0x102, cnt := 1 } 0
     newEvents s (step s)) = some [.fault .callerMemRefused] := by decide

/-- V21: a zero-length write message sets and restores the mask in one step. -/
theorem test_data_phase :
    (let s := atPhase .txData .reset 0
     newEvents s (step s)) = some [.maskSet, .maskRestore false] := by decide

/-- V60, V62, V64. -/
theorem test_handlers :
    (let s := { State.reset with dev := .opened, turns := [{ turn .evtHandler with evtLine := true }] }
     after (step s) fun t => (t.evtEn, t.sig, t.history)) = some (false, 1, [.lineDisable .evt, .post .evt]) ∧
    (let s := { State.reset with
       dev := .opened, sig := 0xFFFFFFFF, turns := [{ turn .errHandler with errLine := true }] }
     after (step s) fun t => (t.errEn, t.sig, t.history)) = some (true, 0xFFFFFFFF, [.post .err]) ∧
    (let s := { State.reset with turns := [{ turn .errHandler with errLine := true }] }
     newEvents s (step s)) = some [.fault .irqWhileClosed] := by decide

/-- R76: the lock is taken only when free. -/
theorem test_acquire :
    (let s := { State.reset with
       dev := .opened, req := [.waitLock 3 0x100 1, .waitLock 4 400000 0], turns := [turn (.acquire 1)] }
     after (step s) fun t => (t.lock, t.phase, t.x.hz, t.slot 0, t.slot 1))
      = some (.held 1, .sfRdCr1, 400000, .waitLock 3 0x100 1, .running) ∧
    (let s := { State.reset with
       dev := .opened, lock := .held 0, req := [.running, .waitLock 4 400000 0], turns := [turn (.acquire 1)] }
     after (step s) fun t => t.slot 1) = some (.waitLock 4 400000 0) := by decide

/-- Every row, placed by `withFetchWord`, runs as the first instruction after reset. -/
theorem test_withFetchWord :
    (let f (nbits w : Nat) := after (step (State.reset.withFetchWord nbits w)) fun t => t.fault
     [f 32 1, f 32 2, f 32 3, f 32 4, f 32 5, f 41 0x10000000101, f 41 0x10000000201, f 41 0x10000000400,
       f 41 0x10000000401, f 41 0x00000000001, f 41 0x1040000002A, f 41 0x110000000A1, f 41 0x010000012CD,
       f 41 0x01400000082, f 41 0x01800000007, f 41 0x11C00008023, f 41 0x1200000000D])
      = List.replicate 17 (some none) := by decide

/-! ### Witnesses: states and operands that meet the hypotheses of the statements, clause by clause -/

/-- Default parameters with a bound of `n` polls. -/
def bounded (n : Nat) : Params := { Params.default with txePollLimit := some n }

theorem witness_DecodeOfEncodedBytesIsTheInstruction :
    (Instr.uopWdata 0xFF).wellFormed Params.default = true ∧ phaseRow .txWrByte = (Instr.uopWdata 0xFF).row ∧
    (Instr.cmdUnrecognised 0xFFFFFFFF 1 2).wellFormed Params.default = true ∧
    (Instr.cmdUnrecognised 0xFFFFFFFF 1 2).row = none ∧
    decoded Params.default (some .txWrByte) (.uopWdata 0xFF) = some (.uopWdata 0xFF) := by decide

theorem witness_MonitorNamesTheRowFromTheTuple :
    paramsOk Params.default = true ∧ (Instr.uopCr1Enable 0x401).wellFormed Params.default = true ∧
    (Instr.uopCr1Enable 0x401).row = some .cr1Enable ∧
    (0x401 : Word) ≠ startWord Params.default ∧ (0x401 : Word) ≠ stopWord Params.default ∧
    decoded Params.default none (.uopCr1Enable 0x401) = some (.uopCr1Enable 0x401) := by decide

theorem witness_OnlyTableEncodingsDecode :
    (decodeRegOp Params.default none { w := true, off := 0x20, val := 5 }).toOption = some (.uopTriseSet 5) ∧
    (decodeRegOp Params.default none { w := false, off := 0x18, val := 5 }).toOption = some (.uopClraddr 5) ∧
    decodeCommand 5 0 0 = .cmdUnrecognised 5 0 0 ∧ decodeCommand 4 0 0 = .cmdSetFrequency 0 0 := by decide

theorem witness_DescriptorIgnoresReservedBits : (0xFFFEFF80 : Word) &&& 0x0001007F = 0 := by decide

theorem witness_OpenDispatchCases :
    (let s := { onPort .closed 1 2 3 with cfg := { Params.default with cfgAttached := false } }
     s.halted = none ∧ s.slot s.port = .submitted 1 2 3 ∧ s.cfg.cfgAttached = false) ∧
    (let s := onPort .opened 1 2 3
     s.halted = none ∧ s.slot s.port = .submitted 1 2 3 ∧ s.cfg.cfgAttached = true ∧ s.dev = .opened) ∧
    (let s := { onPort .closed 1 2 3 with allocOk := false }
     s.halted = none ∧ s.slot s.port = .submitted 1 2 3 ∧ s.cfg.cfgAttached = true ∧ s.dev = .closed ∧
       s.allocOk = false) ∧
    (let s := onPort .closed 1 2 3
     s.halted = none ∧ s.slot s.port = .submitted 1 2 3 ∧ s.cfg.cfgAttached = true ∧ s.dev = .closed ∧
       s.allocOk = true) := by decide

/-- The ports of `onPort` show no waiting command. -/
theorem onPort_noWait (d : Dev) (code a0 a1 : Word) (q : Nat) (c b0 b1 : Word) :
    (onPort d code a0 a1).slot q ≠ .waitLock c b0 b1 := by
  match q with
  | 0 => simp [onPort, State.slot]
  | 1 => simp [onPort, State.slot]
  | _ + 2 => simp [onPort, State.slot]

theorem witness_CloseDispatchCases :
    (let s := onPort .closed 2 0 0
     s.halted = none ∧ s.slot s.port = .submitted 2 0 0 ∧ s.dev = .closed) ∧
    (let s := { onPort .opened 2 0 0 with lock := .held 1 }
     s.halted = none ∧ s.slot s.port = .submitted 2 0 0 ∧ s.dev = .opened ∧ s.lock ≠ .free) ∧
    (let s := { onPort .opened 2 0 0 with req := [.submitted 2 0 0, .waitLock 3 0 1] }
     s.halted = none ∧ s.slot s.port = .submitted 2 0 0 ∧ s.dev = .opened ∧ 1 ≠ s.port ∧
       s.slot 1 = .waitLock 3 0 1) ∧
    (let s := onPort .opened 2 0 0
     s.halted = none ∧ s.slot s.port = .submitted 2 0 0 ∧ s.dev = .opened ∧ s.lock = .free ∧
       ∀ q code b0 b1, q ≠ s.port → s.slot q ≠ .waitLock code b0 b1) := by
  refine ⟨by decide, by decide, by decide, by decide, by decide, by decide, by decide, ?_⟩
  exact fun q code b0 b1 _ => onPort_noWait _ _ _ _ q code b0 b1

theorem witness_TransferDispatchCases :
    (let s := onPort .closed 3 4 0
     s.halted = none ∧ s.slot s.port = .submitted 3 4 0 ∧ s.dev = .closed) ∧
    (let s := onPort .opened 3 4 0
     s.halted = none ∧ s.slot s.port = .submitted 3 4 0 ∧ s.dev = .opened) ∧
    (let s := onPort .opened 3 4 1
     s.halted = none ∧ s.slot s.port = .submitted 3 4 1 ∧ s.dev = .opened ∧ (1 : Word) ≠ 0) := by decide

/-- The frequencies at the ceiling, one above it, and the two ends of the accepted range. -/
theorem witness_SetFrequencyDispatchCases :
    (let s := onPort .closed 4 400001 0
     s.halted = none ∧ s.slot s.port = .submitted 4 400001 0 ∧ s.dev = .closed) ∧
    (let s := onPort .opened 4 400001 0
     s.halted = none ∧ s.slot s.port = .submitted 4 400001 0 ∧ s.dev = .opened ∧
       (400001 : Word).toNat > s.cfg.fastMaxHz.toNat ∧ s.cfg.rejectTouchesCr1 = false) ∧
    (let s := { onPort .opened 4 400001 0 with cfg := { Params.default with rejectTouchesCr1 := true } }
     s.halted = none ∧ s.slot s.port = .submitted 4 400001 0 ∧ s.dev = .opened ∧
       (400001 : Word).toNat > s.cfg.fastMaxHz.toNat ∧ s.cfg.rejectTouchesCr1 = true) ∧
    (let s := onPort .opened 4 0 0
     s.halted = none ∧ s.slot s.port = .submitted 4 0 0 ∧ s.dev = .opened) ∧
    (let s := onPort .opened 4 400000 0
     s.halted = none ∧ s.slot s.port = .submitted 4 400000 0 ∧ s.dev = .opened ∧ (400000 : Word) ≠ 0 ∧
       (400000 : Word).toNat ≤ s.cfg.fastMaxHz.toNat) ∧
    (let s := onPort .opened 4 1 0
     s.halted = none ∧ s.slot s.port = .submitted 4 1 0 ∧ s.dev = .opened ∧ (1 : Word) ≠ 0 ∧
       (1 : Word).toNat ≤ s.cfg.fastMaxHz.toNat) := by decide

theorem witness_UnrecognisedCommandCompletesEinval :
    (let s := onPort .closed 5 0 0
     s.halted = none ∧ s.slot s.port = .submitted 5 0 0) ∧
    (5 : Word) ≠ 1 ∧ (5 : Word) ≠ 2 ∧ (5 : Word) ≠ 3 ∧ (5 : Word) ≠ 4 ∧
    (let s := onPort .opened 0 0 0
     s.halted = none ∧ s.slot s.port = .submitted 0 0 0) := by decide

theorem witness_OpenRunsToCompletion :
    (let s := onPort .closed 1 0 0
     s.halted = none ∧ s.slot s.port = .submitted 1 0 0 ∧ s.cfg.cfgAttached = true ∧ s.dev = .closed ∧
       s.allocOk = true) := by decide

theorem witness_CloseRunsToCompletion :
    (let s := onPort .opened 2 0 0
     s.halted = none ∧ s.slot s.port = .submitted 2 0 0 ∧ s.dev = .opened ∧ s.lock = .free ∧
       ∀ q code b0 b1, s.slot q ≠ .waitLock code b0 b1) := by
  refine ⟨by decide, by decide, by decide, by decide, ?_⟩
  exact onPort_noWait _ _ _ _

theorem witness_SetFrequencyRunsToCompletion :
    (let s := onPort .opened 4 100000 0
     s.halted = none ∧ s.slot s.port = .submitted 4 100000 0 ∧ s.dev = .opened ∧ s.lock = .free ∧
       (100000 : Word) ≠ 0 ∧ (100000 : Word).toNat ≤ s.cfg.fastMaxHz.toNat) := by decide

theorem witness_RejectedFrequencyRestoresCr1 :
    (let s := { onPort .opened 4 400001 0 with cfg := { Params.default with rejectTouchesCr1 := true } }
     s.halted = none ∧ s.slot s.port = .submitted 4 400001 0 ∧ s.dev = .opened ∧ s.lock = .free ∧
       (400001 : Word).toNat > s.cfg.fastMaxHz.toNat ∧ s.cfg.rejectTouchesCr1 = true) := by decide

/-- The write message of V21 at 0x100, its reserved bits set. -/
theorem witness_ZeroLengthWriteRunsToCompletion :
    (let s := { onPort .opened 3 0x100 1 with
       lent := [{ owner := 0, base := 0x100, size := 12 }], cmem := [(0x100, 0xFF), (0x103, 0xFE)] }
     let u := s.setX { s.x with owner := s.port }
     s.halted = none ∧ s.slot s.port = .submitted 3 0x100 1 ∧ s.dev = .opened ∧ s.lock = .free ∧
       s.irqMask = false ∧ (0x100 : Word) &&& 3 = 0 ∧
       u.cmemWord 0x100 = some 0xFE0000FF ∧ (0xFE0000FF : Word).extractLsb' 16 1 = 0 ∧
       u.cmemWord (0x100 + 4) = some 0 ∧ u.cmemWord (0x100 + 8) = some 0 ∧
       (0x0001 : Word) &&& errMask s.cfg = 0 ∧ (0x2002 : Word) &&& errMask s.cfg = 0) := by decide

theorem witness_ErrorAfterStartStopsWithEbus :
    (let s := atPhase .txStart .reset 0
     s.halted = none ∧ s.phase = .txStart ∧ s.x.err = .ok ∧ s.x.owner < s.req.length ∧
       (0x0100 : Word) &&& errMask s.cfg ≠ 0 ∧ (0x4000 : Word) &&& errMask s.cfg ≠ 0) := by decide

/-- Every phase the results of the micro-operations speak of, in a state that is not stopped. -/
theorem witness_phases :
    (∀ ph ∈ [Phase.sfRdCr1, .sfrRdCr1, .opRdCr1, .clRdCr1, .sfrDisable, .clDisable, .sfRestore, .sfrRestore,
        .opWrCr2, .opEnable, .sfWrCcr, .sfWrTrise, .txStart, .txStop, .txAddr, .txAddrClr, .txStartSt, .txAddrSt,
        .txWrPoll, .txRdByte, .txWrByte, .txFetch, .txData, .txNext, .txDone],
      (atPhase ph .reset 0).halted = none ∧ (atPhase ph .reset 0).phase = ph) ∧
    (atPhase .sfRestore { Regs.reset with ret := .opening } 0).x.ret = .opening ∧
    (atPhase .sfRestore { Regs.reset with ret := .ioctl } 0).x.ret = .ioctl := by decide

/-- The two ends of the range of frequencies, and the standard ceiling on either side. -/
theorem witness_SfDisableComputesTheTiming :
    (let f (hz : Word) := atPhase .sfDisable { Regs.reset with hz := hz } 0
     (f 1).halted = none ∧ (f 1).phase = .sfDisable ∧ (f 1).x.hz ≠ 0 ∧
       (f 1).x.hz.toNat ≤ (f 1).cfg.fastMaxHz.toNat ∧ (f 1).x.hz.toNat ≤ (f 1).cfg.stdMaxHz.toNat ∧
       (f 100001).x.hz ≠ 0 ∧ (f 100001).x.hz.toNat > (f 1).cfg.stdMaxHz.toNat ∧
       (f 400000).x.hz ≠ 0 ∧ (f 400000).x.hz.toNat ≤ (f 1).cfg.fastMaxHz.toNat) := by decide

theorem witness_Cr1DisableOfRejectionAndClose :
    (∀ q code b0 b1, (atPhase .clDisable .reset 0).slot q ≠ .waitLock code b0 b1) ∧
    (let s := { atPhase .clDisable .reset 0 with req := [.running, .waitLock 3 0 1] }
     s.halted = none ∧ s.phase = .clDisable ∧ s.slot 1 = .waitLock 3 0 1) := by
  refine ⟨fun q code b0 b1 => ?_, by decide⟩
  match q with
  | 0 => simp [atPhase, State.slot]
  | 1 => simp [atPhase, State.slot]
  | _ + 2 => simp [atPhase, State.slot]

/-- The lowest and the highest error bit, and words with every other bit set. -/
theorem witness_StatusReadsTestTheErrorMask :
    (let m := Params.default.sr1Timeout ||| Params.default.sr1Af ||| Params.default.sr1Pecerr
       ||| Params.default.sr1Ovr ||| Params.default.sr1Arlo ||| Params.default.sr1Berr
     (0x0100 : Word) &&& m ≠ 0 ∧ (0x4000 : Word) &&& m ≠ 0 ∧ (0xFFFFA0FF : Word) &&& m = 0) := by decide

/-- One poll short of the bound, and the poll that reaches it. -/
theorem witness_PollTestsTransmitEmptyOnly :
    (0x0080 : Word) &&& Params.default.sr1Txe ≠ 0 ∧ (0xFFFFFF7F : Word) &&& Params.default.sr1Txe = 0 ∧
    (let s := { atPhase .txWrPoll { Regs.reset with polls := 2 } 0 with cfg := bounded 3 }
     s.halted = none ∧ s.phase = .txWrPoll ∧ s.cfg.txePollLimit = some 3 ∧ 3 ≤ s.x.polls + 1) ∧
    (let s := { atPhase .txWrPoll { Regs.reset with polls := 1 } 0 with cfg := bounded 3 }
     s.halted = none ∧ s.phase = .txWrPoll ∧ s.cfg.txePollLimit = some 3 ∧ s.x.polls + 1 < 3) := by decide

/-- The first and the last byte lent, and the one after it. -/
theorem witness_ReadByteGoesToTheBuffer :
    (let f (b : Word) := atPhase .txRdByte { Regs.reset with rd := 1, len := 1, buf := b } 0
     (f 0x100).halted = none ∧ (f 0x100).phase = .txRdByte ∧ (f 0x100).cmem.wf = true ∧
       (f 0x100).admits ((f 0x100).x.buf + (f 0x100).x.bi).toNat 1 = true ∧
       (f 0x13F).admits ((f 0x13F).x.buf + (f 0x13F).x.bi).toNat 1 = true ∧
       (f 0x140).admits ((f 0x140).x.buf + (f 0x140).x.bi).toNat 1 = false) := by decide

/-- The last byte but one, the last byte, and a byte not lent. -/
theorem witness_WriteByteComesFromTheBuffer :
    (let f (b bi : Word) := atPhase .txWrByte { Regs.reset with len := 2, bi := bi, buf := b } 0
     (f 0x100 0).halted = none ∧ (f 0x100 0).phase = .txWrByte ∧
       (f 0x100 0).admits ((f 0x100 0).x.buf + (f 0x100 0).x.bi).toNat 1 = true ∧
       ((f 0x100 0).x.bi + 1).toNat < (f 0x100 0).x.len.toNat ∧
       (f 0x100 1).admits ((f 0x100 1).x.buf + (f 0x100 1).x.bi).toNat 1 = true ∧
       (f 0x100 1).x.len.toNat ≤ ((f 0x100 1).x.bi + 1).toNat ∧
       (f 0x140 0).admits ((f 0x140 0).x.buf + (f 0x140 0).x.bi).toNat 1 = false) := by decide

/-- A descriptor that ends where the lent region ends; one whose last word lies outside; a misaligned pointer. -/
theorem witness_FetchLoadsTheDescriptor :
    (let f (m : Word) := atPhase .txFetch { Regs.reset with msgs := m, cnt := 1 } 0
     (f 0x134).phase = .txFetch ∧ (f 0x134).x.msgs.toNat % 4 = 0 ∧
       (f 0x134).cmemWord ((f 0x134).x.msgs + 12 * (f 0x134).x.mi) = some 0 ∧
       (f 0x134).cmemWord ((f 0x134).x.msgs + 12 * (f 0x134).x.mi + 4) = some 0 ∧
       (f 0x134).cmemWord ((f 0x134).x.msgs + 12 * (f 0x134).x.mi + 8) = some 0 ∧
       (f 0x138).fault = none ∧ (f 0x138).cmemWord ((f 0x138).x.msgs + 12 * (f 0x138).x.mi + 8) = none ∧
       (f 0x102).x.msgs.toNat % 4 ≠ 0) := by decide

theorem witness_CallerWordsAreLittleEndian :
    (let s := { atPhase .txFetch .reset 0 with cmem := [(0x13C, 0xD0), (0x13F, 0xFF)] }
     s.cmemWord 0x13C = some 0xFF0000D0 ∧ s.cmemWord 0x13D = none) := by decide

theorem witness_DataPhaseOpensTheLoop :
    (atPhase .txData { Regs.reset with rd := 1 } 0).x.rd = 1 ∧
    (let s := atPhase .txData { Regs.reset with rd := 0, len := 1 } 0
     s.phase = .txData ∧ s.x.rd = 0 ∧ s.x.len ≠ 0) ∧
    (let s := atPhase .txData { Regs.reset with rd := 0, len := 0 } 0
     s.phase = .txData ∧ s.x.rd = 0 ∧ s.x.len = 0) := by decide

/-- The last message but one, and the last. -/
theorem witness_NextAndDonePhases :
    (let s := atPhase .txNext { Regs.reset with mi := 0, cnt := 2 } 0
     s.phase = .txNext ∧ (s.x.mi + 1).toNat < s.x.cnt.toNat) ∧
    (let s := atPhase .txNext { Regs.reset with mi := 1, cnt := 2 } 0
     s.phase = .txNext ∧ s.x.cnt.toNat ≤ (s.x.mi + 1).toNat) ∧
    (atPhase .txDone .reset 0).phase = .txDone := by decide

theorem witness_AcquireStartsTheWaitingCommand :
    (let s := { onPort .opened 0 0 0 with req := [.waitLock 3 4 1, .waitLock 4 400001 0] }
     s.slot 0 = .waitLock 3 4 1 ∧ s.slot 1 = .waitLock 4 400001 0 ∧ s.lock = .free ∧ s.dev = .opened) ∧
    (let s := { onPort .opened 0 0 0 with lock := .held 1 }
     s.lock ≠ .free) ∧ (onPort .closed 0 0 0).dev = .closed := by decide

theorem witness_HandlersOnlySignal :
    (let s := { onPort .opened 0 0 0 with evtLine := true, errLine := true }
     s.fault = none ∧ s.evtLine = true ∧ s.errLine = true ∧ s.evtEn = true ∧ s.errEn = true ∧ s.irqMask = false ∧
       s.dev = .opened) ∧
    (let s := { onPort .closed 0 0 0 with evtLine := true, errLine := true }
     s.fault = none ∧ s.evtLine = true ∧ s.errLine = true ∧ s.evtEn = true ∧ s.errEn = true ∧ s.irqMask = false ∧
       s.dev = .closed) ∧
    (onPort .opened 0 0 0).evtLine = false ∧ (onPort .opened 0 0 0).errLine = false := by decide

theorem witness_RequestersSubmitAndCollect :
    (1 < State.reset.req.length ∧ State.reset.slot 1 = .idle) ∧ (onPort .opened 1 0 0).slot 0 ≠ .idle ∧
    (let s := { State.reset with req := [.done .enomem, .idle] }
     s.slot 0 = .done .enomem ∧ s.slot 1 = .idle) ∧ State.reset.req.length ≤ 2 := by decide

theorem witness_StepRunsTheDecodedCommand :
    (let s := onPort .opened 3 4 1
     s.halted = none ∧ s.turn.move = .dispatch 0 ∧ s.slot 0 = .submitted 3 4 1 ∧
       (decode s.cfg none (Raw.cmd 3 4 1).toBytes).toOption = some (.cmdExecuteTransfer 4 1)) := by decide

theorem witness_StepRunsTheDecodedMicroOperation :
    (let s := atPhase .txWrByte { Regs.reset with len := 1, buf := 0x100 } 7
     s.halted = none ∧ s.turn.move = .sequencer 7 ∧ s.regOp 7 = some { w := true, off := 0x10, val := 0 }) := by
  decide

/-- A step that marks a fault, and a state with one marked. -/
theorem witness_FaultIsStickyAndLogged :
    after (step (onPort .opened 4 0 0)) (fun t => t.fault) = some (some .setFreqZeroHz) ∧
    { State.reset with fault := some .irqWhileClosed }.fault = some .irqWhileClosed := by decide

/-- A state whose parameters break a constraint: the base address off by 1. -/
theorem witness_BrokenParametersHaveNoRun :
    (let s := State.resetWith { Params.default with base := 0x40005401 }
     s.fault = none ∧ s.cfg.base.toNat % 4 ≠ 0) ∧
    (let s := State.resetWith { Params.default with fastMaxHz := 1431655766 }
     s.fault = none ∧ 2 ^ 32 ≤ s.cfg.fastMaxHz.toNat * 3) := by decide

theorem witness_CommandsLeaveTheRestAlone :
    (Instr.cmdOpen 0 0).row = none ∧
    after (exec (.cmdOpen 0 0) (onPort .closed 1 0 0)) (fun t => t.lock) = some (.held 0) := by decide

theorem witness_MicroOperationsLeaveTheRestAlone :
    (Instr.uopRdata 0xFF).row = some .rdata ∧
    after (exec (.uopRdata 0xFF) (atPhase .txRdByte { Regs.reset with rd := 1, len := 1, buf := 0x13F } 0))
      (fun t => t.cmem) = some [(0x13F, 0xFF)] := by decide

/-! ### States of the invariant, and the rules that rest on it -/

/-- A rejection that touches CR1, about to end, with another command waiting. -/
def rejecting : State :=
  { atPhase .sfrRestore { Regs.reset with op := 4, hz := 400001, old := 1 } 0 with
    cfg := { Params.default with rejectTouchesCr1 := true }
    req := [.running, .waitLock 3 0x100 1] }

theorem rejecting_inv : Inv rejecting where
  lock :=
    { idleIffFree := by decide
      holder := by
        intro r h
        cases h
        decide
      runningHolds := by
        intro r h
        match r with
        | 0 => rfl
        | 1 => exact absurd h (by decide)
        | n + 2 => simp [rejecting, State.slot] at h
      closedIdle := by decide
      ports := by decide }
  wait := by
    intro r code a0 a1 h
    match r with
    | 0 => simp [rejecting, State.slot] at h
    | 1 =>
      simp only [rejecting, State.slot, List.getD_cons_succ, List.getD_cons_zero, Slot.waitLock.injEq] at h
      obtain ⟨rfl, rfl, rfl⟩ := h
      exact .inl (by decide)
    | n + 2 => simp [rejecting, State.slot] at h
  work :=
    { op := by
        intro code h
        cases h
        decide
      hz := by decide
      rejection := by decide
      timing := by decide
      message := by decide
      error := by decide
      byte := by decide
      direction := by decide
      polls := by
        intro h
        exact absurd h (by decide) }
  mask := { mask := by decide, saved := by decide }
  timeout := by
    intro _
    refine ⟨by decide, fun r => ?_⟩
    match r with
    | 0 => decide
    | 1 => decide
    | n + 2 => simp [rejecting, State.slot]
  trace := { lock := by decide, mask := by decide }
  memory := by decide

theorem witness_StepKeepsTheInvariant :
    Inv rejecting ∧ after (step rejecting) (fun t => (t.lock, t.slot 0)) = some (.free, .done .einval) :=
  ⟨rejecting_inv, by decide⟩

theorem witness_LockIsLeftOnlyByItsHolder :
    Inv rejecting ∧ rejecting.lock = .held 0 ∧ rejecting.slot 1 = .waitLock 3 0x100 1 :=
  ⟨rejecting_inv, by decide, by decide⟩

/-- The set-frequency routine at the fast-mode ceiling, about to disable the controller. -/
def disabling : State :=
  { atPhase .sfDisable { Regs.reset with op := 4, hz := 400000, old := 1 } 0 with req := [.running, .done .ok] }

theorem disabling_inv : Inv disabling where
  lock :=
    { idleIffFree := by decide
      holder := by
        intro r h
        cases h
        decide
      runningHolds := by
        intro r h
        match r with
        | 0 => rfl
        | 1 => exact absurd h (by decide)
        | n + 2 => simp [disabling, State.slot] at h
      closedIdle := by decide
      ports := by decide }
  wait := by
    intro r code a0 a1 h
    match r with
    | 0 => simp [disabling, State.slot] at h
    | 1 => simp [disabling, State.slot] at h
    | n + 2 => simp [disabling, State.slot] at h
  work :=
    { op := by
        intro code h
        cases h
        decide
      hz := by decide
      rejection := by decide
      timing := by decide
      message := by decide
      error := by decide
      byte := by decide
      direction := by decide
      polls := by
        intro h
        exact absurd h (by decide) }
  mask := { mask := by decide, saved := by decide }
  timeout := by
    intro _
    refine ⟨by decide, fun r => ?_⟩
    match r with
    | 0 => decide
    | 1 => decide
    | n + 2 => simp [disabling, State.slot]
  trace := { lock := by decide, mask := by decide }
  memory := by decide

/-- A command on port 0 of an idle machine. -/
theorem onPort_inv (d : Dev) (code a0 a1 : Word) : Inv (onPort d code a0 a1) where
  lock :=
    { idleIffFree := by simp [onPort, State.reset, State.resetWith]
      holder := by
        intro r h
        cases h
      runningHolds := by
        intro r h
        match r with
        | 0 => simp [onPort, State.slot] at h
        | 1 => simp [onPort, State.slot] at h
        | n + 2 => simp [onPort, State.slot] at h
      closedIdle := fun _ => rfl
      ports := rfl }
  wait := fun r c b0 b1 h => absurd h (onPort_noWait d code a0 a1 r c b0 b1)
  work :=
    { op := by
        intro c h
        cases h
      hz := by
        rintro (h | h) <;> cases h
      rejection := by
        rintro (h | h | h) <;> cases h
      timing := by
        rintro (h | h) <;> cases h
      message := by
        intro h
        cases h
      error := by
        intro h
        cases h
      byte := by
        rintro (h | h) <;> cases h
      direction := by
        constructor <;> intro h <;> cases h
      polls := by
        intro h
        cases h }
  mask := { mask := rfl, saved := fun h => nomatch h }
  timeout := by
    intro _
    refine ⟨fun h => (nomatch h), fun r => ?_⟩
    match r with
    | 0 => simp [onPort, State.slot]
    | 1 => simp [onPort, State.slot]
    | n + 2 => simp [onPort, State.slot]
  trace := { lock := rfl, mask := rfl }
  memory := rfl

/-- Both ways: at the end of a rejection that touches CR1, and at dispatch one above the ceiling, with an unrecognised code,
and on a closed device. -/
theorem witness_EinvalHasOnlyItsCauses :
    (Inv rejecting ∧
      newEvents rejecting (step rejecting) = some [.regWrite 0 1, .lockRel 0, .complete 0 .einval]) ∧
    (Inv (onPort .opened 4 400001 0) ∧ newEvents (onPort .opened 4 400001 0) (step (onPort .opened 4 400001 0))
      = some [.dispatch 0 4, .complete 0 .einval]) ∧
    (Inv (onPort .opened 5 0 0) ∧ newEvents (onPort .opened 5 0 0) (step (onPort .opened 5 0 0))
      = some [.dispatch 0 5, .complete 0 .einval]) ∧
    (Inv (onPort .closed 3 0 0) ∧ newEvents (onPort .closed 3 0 0) (step (onPort .closed 3 0 0))
      = some [.dispatch 0 3, .complete 0 .einval]) :=
  ⟨⟨rejecting_inv, by decide⟩, ⟨onPort_inv _ _ _ _, by decide⟩, ⟨onPort_inv _ _ _ _, by decide⟩,
    ⟨onPort_inv _ _ _ _, by decide⟩⟩

theorem witness_NoWrapNoZeroDivisor : Inv disabling ∧ disabling.halted = none ∧ disabling.phase = .sfDisable :=
  ⟨disabling_inv, by decide, by decide⟩

theorem witness_HistoryGrowsAndParametersStay :
    after (step rejecting) (fun t => (t.tick, t.req.length)) = some (1, 2) := by decide

theorem witness_RegisterAccessesAreTableRows :
    newEvents (atPhase .txAddrClr .reset 7) (step (atPhase .txAddrClr .reset 7)) = some [.regRead 0x18 7] := by decide

theorem witness_TransferWritesOnlyCr1AndDr :
    inTransfer .txStop = true ∧
    newEvents (atPhase .txStop .reset 0) (step (atPhase .txStop .reset 0)) = some [.regWrite 0 0x201] := by decide

theorem witness_DeviceStateChangesOnlyByOpenAndClose :
    after (step (onPort .closed 1 0 0)) (fun t => t.dev) = some .opened ∧
    after (step (atPhase .clDisable .reset 0)) (fun t => t.dev) = some .closed := by decide

theorem witness_MaskChangesOnlyInTheWriteLoop :
    after (step (atPhase .txData { Regs.reset with len := 1 } 0)) (fun t => t.irqMask) = some true := by decide

/-- A bus error, a timeout, and the error cleared when a transfer starts. -/
theorem witness_TransferErrorsHaveOnlyTheirCauses :
    after (step (atPhase .txAddrSt .reset 0x0400)) (fun t => t.x.err) = some .ebus ∧
    (let s := { atPhase .txWrPoll { Regs.reset with polls := 2 } 0 with cfg := bounded 3 }
     after (step s) fun t => t.x.err) = some .etimedout ∧
    (let s := { onPort .opened 0 0 0 with
       x := { Regs.reset with err := .ebus }, req := [.waitLock 3 0 1, .idle], turns := [turn (.acquire 0)] }
     after (step s) fun t => t.x.err) = some .ok := by decide

/-! ### Witnesses of the byte loops -/

/-- Two bytes to come, the last two that are lent. -/
theorem witness_ReadLoopFillsTheBuffer :
    (let s := atPhase .txRdByte { Regs.reset with rd := 1, len := 2, buf := 0x13E } 0
     s.halted = none ∧ s.phase = .txRdByte ∧ s.cmem.wf = true ∧ s.x.bi.toNat < s.x.len.toNat ∧
       [(1 : Word), 2].length = s.x.len.toNat - s.x.bi.toNat ∧
       (∀ j, j < 2 → s.admits (s.x.buf + s.x.bi + BitVec.ofNat 32 j).toNat 1 = true) ∧
       after (runSequencer s [1, 2]) (fun t => (t.cmem, t.phase)) = some ([(0x13E, 1), (0x13F, 2)], .txNext)) := by
  decide

/-- Two bytes to send. -/
def sending : State :=
  { atPhase .txWrPoll { Regs.reset with len := 2, buf := 0x13E } 0 with irqMask := true, cmem := [(0x13E, 1)] }

theorem witness_WriteLoopSendsTheBuffer :
    (sending.halted = none ∧ sending.phase = .txWrPoll ∧ sending.x.bi.toNat < sending.x.len.toNat) ∧
    (List.replicate 2 (0x80 : Word)).length = sending.x.len.toNat - sending.x.bi.toNat ∧
    (∀ v ∈ List.replicate 2 (0x80 : Word), v &&& sending.cfg.sr1Txe ≠ 0) ∧
    (∀ j, j < 2 → sending.admits (sending.x.buf + sending.x.bi + BitVec.ofNat 32 j).toNat 1 = true) ∧
    after (runSequencer sending [0x80, 0, 0x80, 0]) (fun t => (t.irqMask, t.phase)) = some (false, .txNext) := by
  refine ⟨by decide, by decide, fun v hv => ?_, by decide, by decide⟩
  rw [List.eq_of_mem_replicate hv]
  decide

/-- A wait on a target that does not acknowledge (V26). -/
theorem witness_UnboundedWaitNeverEnds :
    (let s := atPhase .txWrPoll { Regs.reset with len := 1 } 0
     s.halted = none ∧ s.phase = .txWrPoll ∧ s.cfg.txePollLimit = none ∧
       ∀ v ∈ List.replicate 1000 (0x0400 : Word), v &&& s.cfg.sr1Txe = 0) := by
  refine ⟨by decide, by decide, by decide, fun v hv => ?_⟩
  rw [List.eq_of_mem_replicate hv]
  decide

/-- The last two polls of a bound of three, and a bound of one poll. -/
theorem witness_BoundedWaitTimesOut :
    (let s := { atPhase .txWrPoll { Regs.reset with len := 1, polls := 1 } 0 with cfg := bounded 3, irqMask := true }
     s.halted = none ∧ s.phase = .txWrPoll ∧ s.cfg.txePollLimit = some 3 ∧ s.x.polls < 3 ∧
       (List.replicate 2 (0x0400 : Word)).length = 3 - s.x.polls ∧ s.x.err = .ok ∧
       (∀ v ∈ List.replicate 2 (0x0400 : Word), v &&& s.cfg.sr1Txe = 0) ∧
       after (runSequencer s [0x0400, 0x0400]) (fun t => (t.phase, t.x.err, t.irqMask))
         = some (.txStop, .etimedout, false)) ∧
    (let s := { atPhase .txWrPoll { Regs.reset with len := 1 } 0 with cfg := bounded 1 }
     s.x.polls < 1 ∧ (List.replicate 1 (0 : Word)).length = 1 - s.x.polls) := by
  refine ⟨⟨by decide, by decide, by decide, by decide, by decide, by decide, fun v hv => ?_, by decide⟩, by decide⟩
  rw [List.eq_of_mem_replicate hv]
  decide

/-- A second controller right above the registers of the first. -/
def second : State := { onPort .closed 1 0 0 with cfg := { Params.default with base := 0x40005424 } }

/-- Two instances whose ranges touch, the second moving; and two one register closer, which share an address. -/
theorem witness_InstancesDoNotInteract :
    Registry.apart [State.reset, second] = true ∧ [State.reset, second][1]? = some second ∧
    after (step second) (fun t => t.dev) = some .opened ∧
    (match Registry.step [State.reset, second] 1 with
     | .next ns => ns.map fun s => s.dev
     | .fault _ => []
     | .refused _ => []) = [.closed, .opened] ∧
    regAddress Params.default .trise = regAddress { Params.default with base := 0x40005420 } .cr1 ∧
    Registry.apart [State.reset, State.resetWith { Params.default with base := 0x40005420 }] = false := by decide

end Sys2Proof.Tests
end

section
/-! SUPPORT. Settles the statements about the scope of the model (00_scope.md): no step is refused (R15), the history only grows
and the parameters stay (R8, R27, R30), and a sequencer step runs the micro-operation decoded from its tuple (R16). -/

namespace Sys2Proof.Machine

/-! ### What no agent's move undoes -/

/-- `t` carries on from `s`: the history grows at its end, the parameters, the number of ports, the error line's enable and the
turns stand, and the event line's enable is not set again (R8, R27, R30). -/
structure Continues (s t : State) : Prop where
  history : s.history <+: t.history
  cfg : t.cfg = s.cfg
  ports : t.req.length = s.req.length
  errEn : t.errEn = s.errEn
  evtEn : t.evtEn = true → s.evtEn = true
  tick : t.tick = s.tick
  turns : t.turns = s.turns

namespace Continues

variable {s t u : State}

@[simp] theorem refl (s : State) : Continues s s := ⟨List.prefix_rfl, rfl, rfl, rfl, id, rfl, rfl⟩

theorem trans (h : Continues s t) (h' : Continues t u) : Continues s u where
  history := h.history.trans h'.history
  cfg := h'.cfg.trans h.cfg
  ports := h'.ports.trans h.ports
  errEn := h'.errEn.trans h.errEn
  evtEn := h.evtEn ∘ h'.evtEn
  tick := h'.tick.trans h.tick
  turns := h'.turns.trans h.turns

/-! The updates that log nothing carry on from exactly what their argument carries on from. -/

@[simp] theorem goto_iff (ph : Phase) : Continues s (t.goto ph) ↔ Continues s t :=
  ⟨fun h => { h with }, fun h => { h with }⟩

@[simp] theorem setX_iff (x : Regs) : Continues s (t.setX x) ↔ Continues s t :=
  ⟨fun h => { h with }, fun h => { h with }⟩

@[simp] theorem setSlot_iff (r : Nat) (v : Slot) : Continues s (t.setSlot r v) ↔ Continues s t :=
  ⟨fun h => { h with ports := by simpa using h.ports }, fun h => { h with ports := by simpa using h.ports }⟩

@[simp] theorem setLock_iff (l : Lock) : Continues s (t.setLock l) ↔ Continues s t :=
  ⟨fun h => { h with }, fun h => { h with }⟩

@[simp] theorem setDev_iff (d : Dev) : Continues s (t.setDev d) ↔ Continues s t :=
  ⟨fun h => { h with }, fun h => { h with }⟩

@[simp] theorem setIrqMask_iff (b : Bool) : Continues s (t.setIrqMask b) ↔ Continues s t :=
  ⟨fun h => { h with }, fun h => { h with }⟩

@[simp] theorem withPort_iff (r : Nat) : Continues s (t.withPort r) ↔ Continues s t :=
  ⟨fun h => { h with }, fun h => { h with }⟩

@[simp] theorem unlend_iff (r : Nat) : Continues s (t.unlend r) ↔ Continues s t :=
  ⟨fun h => { h with }, fun h => { h with }⟩

@[simp] theorem lend_iff (r : Nat) (regions : List (Nat × Nat)) : Continues s (t.lend r regions) ↔ Continues s t :=
  ⟨fun h => { h with }, fun h => { h with }⟩

@[simp] theorem post_iff : Continues s t.post ↔ Continues s t :=
  ⟨fun h => { h with }, fun h => { h with }⟩

@[simp] theorem raiseBusError_iff (v : Word) : Continues s (t.raiseBusError v) ↔ Continues s t :=
  ⟨fun h => { h with }, fun h => { h with }⟩

/-! The operations that log. -/

@[simp] theorem log (h : Continues s t) (e : Event) : Continues s (t.log e) :=
  { h with history := h.history.trans (List.prefix_append t.history [e]) }

@[simp] theorem raiseFault (h : Continues s t) (f : Fault) : Continues s (t.raiseFault f) := by
  cases hf : t.fault with
  | none => rw [State.raiseFault_of_none hf]; exact { h.log (.fault f) with }
  | some g => rwa [State.raiseFault_of_some hf]

@[simp] theorem complete (h : Continues s t) (r : Nat) (st : Status) : Continues s (t.complete r st) := by
  simp [State.complete_eq, h]

@[simp] theorem takeLock (h : Continues s t) (r : Nat) : Continues s (t.takeLock r) := by
  simp [State.takeLock_eq, h]

@[simp] theorem finish (h : Continues s t) (st : Status) : Continues s (t.finish st) := by
  simp [State.finish_eq, h]

@[simp] theorem maskInterrupts (h : Continues s t) : Continues s t.maskInterrupts := by
  simp [State.maskInterrupts_eq, h]

@[simp] theorem restoreInterrupts (h : Continues s t) : Continues s t.restoreInterrupts := by
  simp [State.restoreInterrupts_eq, h]

@[simp] theorem raiseTimeout (h : Continues s t) : Continues s t.raiseTimeout := by
  simp [State.raiseTimeout_eq, h]

@[simp] theorem cmemStore (h : Continues s t) (a : Word) (b : Byte) : Continues s (t.cmemStore a b) :=
  { h.log (.cMemWrite a 1 (dataWord b)) with }

end Continues

/-! ### The commands -/

theorem openCase_continues (s : State) : Continues s (openCase s) := by
  have opened : Continues s { s with dev := .opened, sig := 0 } := { Continues.refl s with }
  unfold openCase
  split_ifs
  · simp
  · simp
  · simp
  · simpa using opened.takeLock s.port

theorem closeCase_continues (s : State) : Continues s (closeCase s) := by
  unfold closeCase
  split_ifs <;> simp

theorem transferCase_continues (messages count : Word) (s : State) : Continues s (transferCase messages count s) := by
  unfold transferCase
  split_ifs <;> simp

theorem setFrequencyCase_continues (hz a1 : Word) (s : State) : Continues s (setFrequencyCase hz a1 s) := by
  unfold setFrequencyCase
  split_ifs <;> simp

theorem commandEffect_continues (code a0 a1 : Word) (s : State) : Continues s (commandEffect code a0 a1 s) := by
  unfold commandEffect
  split_ifs
  · exact openCase_continues s
  · exact closeCase_continues s
  · exact transferCase_continues a0 a1 s
  · exact setFrequencyCase_continues a0 a1 s
  · simp

theorem dispatchEffect_continues (r : Nat) (s : State) : Continues s (dispatchEffect r s) := by
  unfold dispatchEffect
  split
  · exact Continues.trans (by simp) (commandEffect_continues _ _ _ _)
  · simp

/-! ### The phases with a case split -/

theorem sfRestore_continues (s : State) : Continues s (sfRestore s) := by
  unfold sfRestore
  split <;> simp

theorem clDisable_continues (s : State) : Continues s (clDisable s) := by
  unfold clDisable
  split_ifs <;> simp

theorem txFetch_continues (s : State) : Continues s (txFetch s) := by
  unfold txFetch
  split_ifs
  · simp
  dsimp only
  split
  · simp
  split
  · simp
  split
  · exact .raiseFault (.log (.log (.refl s) _) _) _
  · simpa using Continues.log (.log (.log (.refl s) _) _) _

theorem checkedStatus_continues (v : Word) (good : Phase) (s : State) : Continues s (checkedStatus v good s) := by
  unfold checkedStatus
  split_ifs <;> simp

theorem txData_continues (s : State) : Continues s (txData s) := by
  unfold txData
  split_ifs <;> simp

theorem txRdByte_continues (v : Word) (s : State) : Continues s (txRdByte v s) := by
  unfold txRdByte
  split_ifs <;> simp

theorem txWrPoll_continues (v : Word) (s : State) : Continues s (txWrPoll v s) := by
  unfold txWrPoll
  dsimp only
  split_ifs <;> simp

theorem txWrByte_continues (s : State) : Continues s (txWrByte s) := by
  unfold txWrByte
  split
  · simp
  · dsimp only
    split_ifs
    · simp
    · exact (Continues.goto_iff _).2 (.restoreInterrupts ((Continues.setX_iff _).2 (.log (.log (.refl s) _) _)))

theorem txNext_continues (s : State) : Continues s (txNext s) := by
  unfold txNext
  split_ifs <;> simp

/-- The phases not named here are one line of small updates. -/
theorem phaseEffect_continues (v : Word) (s : State) : Continues s (phaseEffect v s) := by
  unfold phaseEffect
  cases s.phase with
  | sfRestore => exact sfRestore_continues s
  | clDisable => exact clDisable_continues s
  | txFetch => exact txFetch_continues s
  | txStartSt => exact checkedStatus_continues v .txAddr s
  | txAddrSt => exact checkedStatus_continues v .txAddrClr s
  | txData => exact txData_continues s
  | txRdByte => exact txRdByte_continues v s
  | txWrPoll => exact txWrPoll_continues v s
  | txWrByte => exact txWrByte_continues s
  | txNext => exact txNext_continues s
  | _ =>
    simp [sfRdCr1, sfDisable, sfWrCcr, sfWrTrise, sfrRdCr1, sfrDisable, sfrRestore, opWrCr2, opRdCr1, opEnable, clRdCr1,
      txStart, txAddr, txAddrClr, txStop, txDone]

/-! ### The other agents -/

theorem submit_continues (r : Nat) (code a0 a1 : Word) (regions : List (Nat × Nat)) (s : State) :
    Continues s (submit r code a0 a1 regions s) := by
  unfold submit
  split_ifs <;> simp

theorem collect_continues (r : Nat) (s : State) : Continues s (collect r s) := by
  unfold collect
  split <;> simp

theorem startWaiting_continues (r : Nat) (code a0 a1 : Word) (s : State) :
    Continues s (startWaiting r code a0 a1 s) := by
  unfold startWaiting transferStart setFrequencyStart
  split_ifs <;> simp

theorem acquire_continues (r : Nat) (s : State) : Continues s (acquire r s) := by
  unfold acquire
  split
  · split_ifs
    · exact startWaiting_continues ..
    · simp
  · simp

/-- The one move that writes a line enable clears it (R240). -/
theorem evtHandler_continues (s : State) : Continues s (evtHandler s) := by
  have disabled : Continues s { s with evtEn := false } := { Continues.refl s with evtEn := by simp }
  unfold evtHandler
  split_ifs <;> simp [disabled]

theorem errHandler_continues (s : State) : Continues s (errHandler s) := by
  unfold errHandler
  split_ifs <;> simp

theorem moveEffect_continues (m : Move) (s : State) : Continues s (moveEffect m s) := by
  cases m with
  | submit r code a0 a1 regions => exact submit_continues r code a0 a1 regions s
  | collect r => exact collect_continues r s
  | callerWrite a b => exact { Continues.refl s with }
  | dispatch r => exact dispatchEffect_continues r s
  | acquire r => exact acquire_continues r s
  | sequencer v => exact phaseEffect_continues v s
  | evtHandler => exact evtHandler_continues s
  | errHandler => exact errHandler_continues s

/-- A step carries on from the state with the turn taken. -/
theorem step_continues {s t : State} (h : step s = .next t) : Continues s.takeTurn t := by
  obtain ⟨-, rfl⟩ := step_eq_next.mp h
  exact moveEffect_continues _ _

/-! ### The tuple of a phase and its decoding -/

/-- What a phase puts in the value field has the fixed bits of the row and decodes to an instruction of it (R114). -/
theorem decodeRowValue_busValue (s : State) (row : MicroRow) (v : Word) :
    ∃ i, decodeRowValue s.cfg row (s.busValue row v) = .ok i ∧ i.row = some row := by
  cases row with
  | start | stop => exact ⟨_, if_pos rfl, rfl⟩
  | cr1Disable =>
    have masked : s.busValue .cr1Disable v &&& s.cfg.cr1Pe = 0 := by
      unfold State.busValue
      split_ifs <;> exact disableWord_and_pe _ _
    exact ⟨_, if_pos masked, rfl⟩
  | cr1Enable => exact ⟨_, if_pos (enableWord_and_pe _ _), rfl⟩
  | addr => exact ⟨_, if_pos (addressWord_high _ _), rfl⟩
  | wdata => exact ⟨_, if_pos (dataWord_high _), rfl⟩
  | cr1Restore | cr1Read | cr2Init | rdata | status | clraddr | ccrSet | triseSet => exact ⟨_, rfl, rfl⟩

theorem decodeRegOp_rowOp (p : Params) {ph : Phase} {row : MicroRow} (h : phaseRow ph = some row) (v : Word) :
    decodeRegOp p (some ph) (rowOp row v) = decodeRowValue p row v := by
  simp [decodeRegOp, h, rowOp]

theorem State.regOp_eq_some {s : State} {v : Word} {op : RegOp} :
    s.regOp v = some op ↔ ∃ row, phaseRow s.phase = some row ∧ op = rowOp row (s.busValue row v) := by
  unfold State.regOp
  cases phaseRow s.phase <;> simp [eq_comm]

@[simp] theorem State.regOp_takeTurn (s : State) (v : Word) : s.takeTurn.regOp v = s.regOp v := rfl

theorem sequencerStep_of_decode {s : State} {v : Word} {op : RegOp} {i : Instr} (hop : s.regOp v = some op)
    (hi : decodeRegOp s.cfg (some s.phase) op = .ok i) : sequencerStep v s = exec i s := by
  simp [sequencerStep, hop, hi]

end Sys2Proof.Machine

/-! ### The obligations -/

namespace Sys2Proof.Proofs

open Sys2Proof.Machine

/-- Settles O38: a live machine steps by the effect of its move, a stopped one answers its fault. -/
theorem stepNeverRefuses : Obligations.StepNeverRefuses := by
  intro s
  refine ⟨fun r hr => ?_, fun h => ⟨_, step_of_live h⟩, fun f h => step_of_halted h⟩
  cases h : s.halted with
  | none => simp [step_of_live h] at hr
  | some f => simp [step_of_halted h] at hr

/-- Settles O47: taking the turn counts it, and every move carries on from there. -/
theorem historyGrowsAndParametersStay : Obligations.HistoryGrowsAndParametersStay := by
  intro s t h
  obtain ⟨history, cfg, ports, errEn, evtEn, tick, turns⟩ := step_continues h
  exact ⟨history, cfg, ports, errEn, evtEn, tick, turns⟩

/-- Settles O37: the value a phase puts on the bus has the fixed bits of its row. -/
theorem stepRunsTheDecodedMicroOperation : Obligations.StepRunsTheDecodedMicroOperation := by
  intro s v op hlive hmove hop
  obtain ⟨row, hrow, rfl⟩ := State.regOp_eq_some.mp hop
  obtain ⟨i, hval, hirow⟩ := decodeRowValue_busValue s row v
  have hdec : decodeRegOp s.cfg (some s.phase) (rowOp row (s.busValue row v)) = .ok i :=
    (decodeRegOp_rowOp s.cfg hrow _).trans hval
  refine ⟨i, hdec, hirow.trans hrow.symm, ?_⟩
  calc step s = move s.turn.move s.takeTurn := guarded_of_live hlive _
    _ = sequencerStep v s.takeTurn := by rw [hmove]; rfl
    _ = exec i s.takeTurn := sequencerStep_of_decode (s := s.takeTurn) (by simpa using hop) hdec

end Sys2Proof.Proofs
end

section
/-! SUPPORT. The invariant of the machine taken apart: what it says of the working registers in each phase, what of the lock, ports,
history and memory, and how the shared operations keep the latter. -/

namespace Sys2Proof.Machine

/-! ### The device state has two values (R24) -/

theorem Dev.eq_closed {d : Dev} (h : d ≠ .opened) : d = .closed := by
  cases d with
  | closed => rfl
  | opened => exact absurd rfl h

theorem Dev.eq_opened {d : Dev} (h : d ≠ .closed) : d = .opened := by
  cases d with
  | opened => rfl
  | closed => exact absurd rfl h

end Sys2Proof.Machine

namespace Sys2Proof.Safety

open Sys2Proof.Machine

variable {s : State}

/-! ### The invariant phase by phase -/

/-- A message of a transfer is under way: the command, the message index, no error yet (R22, R163, R230). -/
structure MessageInv (x : Regs) : Prop where
  op : x.op = 3
  index : x.mi < x.cnt
  error : x.err = .ok

/-- The set-frequency routine runs for the command `x[RET]` names (R145, R202). -/
def RoutineInv (x : Regs) : Prop := ∀ code, codeOf .sfRestore x.ret = some code → x.op = code

/-- What the invariant says of the working registers in each phase. -/
def PhaseInv (p : Params) (x : Regs) : Phase → Prop
  | .idle => True
  | .sfRdCr1 | .sfDisable => RoutineInv x ∧ x.hz ≠ 0 ∧ overCeiling p x.hz = false
  | .sfWrCcr | .sfWrTrise =>
    RoutineInv x ∧ x.hz ≠ 0 ∧ overCeiling p x.hz = false ∧ computeTiming p x = x
  | .sfRestore => RoutineInv x
  | .sfrRdCr1 | .sfrDisable | .sfrRestore => x.op = 4 ∧ overCeiling p x.hz = true ∧ p.rejectTouchesCr1 = true
  | .opWrCr2 | .opRdCr1 | .opEnable => x.op = 1
  | .clRdCr1 | .clDisable => x.op = 2
  | .txFetch | .txStart | .txStartSt | .txAddr | .txAddrSt | .txAddrClr | .txData | .txNext => MessageInv x
  | .txRdByte => MessageInv x ∧ x.bi < x.len ∧ x.rd = 1
  | .txWrPoll =>
    MessageInv x ∧ x.bi < x.len ∧ x.rd = 0 ∧ x.irqSaved = false ∧ ∀ n, p.txePollLimit = some n → x.polls < n
  | .txWrByte => MessageInv x ∧ x.bi < x.len ∧ x.rd = 0 ∧ x.irqSaved = false
  | .txStop | .txDone =>
    x.op = 3 ∧ (x.err = .ok ∨ x.err = .ebus ∨ x.err = .etimedout ∧ p.txePollLimit ≠ none)

theorem messageInv_iff {x : Regs} : MessageInv x ↔ x.op = 3 ∧ x.mi < x.cnt ∧ x.err = .ok :=
  ⟨fun ⟨op, index, error⟩ => ⟨op, index, error⟩, fun ⟨op, index, error⟩ => ⟨op, index, error⟩⟩

theorem workInv_iff :
    WorkInv s ↔
      (∀ code, codeOf s.phase s.x.ret = some code → s.x.op = code) ∧
      (s.phase = .sfRdCr1 ∨ s.phase = .sfDisable → s.x.hz ≠ 0 ∧ overCeiling s.cfg s.x.hz = false) ∧
      (s.phase = .sfrRdCr1 ∨ s.phase = .sfrDisable ∨ s.phase = .sfrRestore →
        overCeiling s.cfg s.x.hz = true ∧ s.cfg.rejectTouchesCr1 = true) ∧
      (s.phase = .sfWrCcr ∨ s.phase = .sfWrTrise →
        s.x.hz ≠ 0 ∧ overCeiling s.cfg s.x.hz = false ∧ computeTiming s.cfg s.x = s.x) ∧
      (inMessage s.phase = true → s.x.mi < s.x.cnt ∧ s.x.err = .ok) ∧
      (inTransfer s.phase = true → s.x.err = .ok ∨ s.x.err = .ebus ∨ s.x.err = .etimedout) ∧
      (s.phase = .txRdByte ∨ inWriteLoop s.phase = true → s.x.bi < s.x.len) ∧
      ((s.phase = .txRdByte → s.x.rd = 1) ∧ (inWriteLoop s.phase = true → s.x.rd = 0)) ∧
      (s.phase = .txWrPoll → ∀ n, s.cfg.txePollLimit = some n → s.x.polls < n) :=
  ⟨fun ⟨op, hz, rej, tim, msg, err, byte, dir, polls⟩ => ⟨op, hz, rej, tim, msg, err, byte, dir, polls⟩,
    fun ⟨op, hz, rej, tim, msg, err, byte, dir, polls⟩ => ⟨op, hz, rej, tim, msg, err, byte, dir, polls⟩⟩

theorem phaseInv_iff :
    PhaseInv s.cfg s.x s.phase ↔
      WorkInv s ∧ (inWriteLoop s.phase = true → s.x.irqSaved = false) ∧
      (s.cfg.txePollLimit = none → inTransfer s.phase = true → s.x.err ≠ .etimedout) := by
  rw [workInv_iff]
  cases s.phase <;>
    simp [PhaseInv, messageInv_iff, codeOf, inMessage, inTransfer, inWriteLoop, RoutineInv, and_assoc]
  all_goals grind

/-! ### The rest of the invariant -/

/-- The invariant but for phase and mask: lock and ports, waiting commands, statuses, history, memory. -/
structure Shell (s : State) : Prop where
  lock : LockInv s
  wait : WaitInv s
  status : s.cfg.txePollLimit = none → ∀ r, s.slot r ≠ .done .etimedout
  trace : TraceInv s
  memory : s.cmem.wf = true

theorem inv_iff : Inv s ↔ Shell s ∧ PhaseInv s.cfg s.x s.phase ∧ s.irqMask = inWriteLoop s.phase := by
  rw [phaseInv_iff]
  constructor
  · intro ⟨lock, wait, work, mask, timeout, trace, memory⟩
    exact ⟨⟨lock, wait, fun h => (timeout h).2, trace, memory⟩, ⟨work, mask.saved, fun h => (timeout h).1⟩, mask.mask⟩
  · intro ⟨⟨lock, wait, status, trace, memory⟩, ⟨work, saved, error⟩, mask⟩
    exact ⟨lock, wait, work, ⟨mask, saved⟩, fun h => ⟨error h, status h⟩, trace, memory⟩

theorem Inv.shell (h : Inv s) : Shell s := (inv_iff.mp h).1

theorem Inv.phaseInv (h : Inv s) : PhaseInv s.cfg s.x s.phase := (inv_iff.mp h).2.1

/-- What the invariant does not speak of set to fixed values. -/
def visible (s : State) : State :=
  { s with
    sig := 0, evtEn := false, errEn := false, fault := none, errSr1 := 0, lent := [], evtLine := false,
    errLine := false, allocOk := false, port := 0, turns := [], tick := 0 }

theorem inv_visible : Inv (visible s) ↔ Inv s :=
  ⟨fun ⟨lock, wait, work, mask, timeout, trace, memory⟩ =>
      ⟨{ lock with }, wait, { work with }, { mask with }, timeout, { trace with }, memory⟩,
    fun ⟨lock, wait, work, mask, timeout, trace, memory⟩ =>
      ⟨{ lock with }, wait, { work with }, { mask with }, timeout, { trace with }, memory⟩⟩

/-- States that differ only in what the invariant does not speak of meet it alike. -/
theorem Inv.of_visible_eq {t : State} (h : Inv s) (e : visible t = visible s) : Inv t :=
  inv_visible.mp (e ▸ inv_visible.mpr h)

theorem Inv.busy (h : Inv s) (hp : s.phase ≠ .idle) : s.lock ≠ .free := mt h.lock.idleIffFree.mpr hp

theorem Inv.phase_idle (h : Inv s) (free : s.lock = .free) : s.phase = .idle := h.lock.idleIffFree.mpr free

/-- The holder is the owner, its slot is `Running`, and the device is open. -/
theorem LockInv.owner (h : LockInv s) (busy : s.lock ≠ .free) :
    s.lock = .held s.x.owner ∧ s.slot s.x.owner = .running ∧ s.dev = .opened := by
  cases hl : s.lock with
  | free => exact absurd hl busy
  | held r =>
    obtain ⟨howner, hslot, hdev⟩ := h.holder r hl
    exact ⟨by rw [howner], by rwa [howner], hdev⟩

theorem LockInv.free_of_closed (h : LockInv s) (closed : s.dev = .closed) : s.lock = .free := by
  by_contra busy
  exact absurd (h.owner busy).2.2 (by simp [closed])

theorem LockInv.not_waiting_of_closed (h : LockInv s) (closed : s.dev = .closed) (r : Nat) (code a0 a1 : Word) :
    s.slot r ≠ .waitLock code a0 a1 := fun hw =>
  absurd (anyWaiting_iff.mpr ⟨r, code, a0, a1, hw⟩) (by simp [h.closedIdle closed])

/-! ### One more event -/

theorem lockTrace_append (h es : List Event) : lockTrace (h ++ es) = es.foldl lockAfter (lockTrace h) :=
  List.foldl_append ..

theorem maskTrace_append (h es : List Event) : maskTrace (h ++ es) = es.foldl maskAfter (maskTrace h) :=
  List.foldl_append ..

/-- Where the lock is `l` and the mask `m`, the event may stand and opens or closes no bracket. -/
structure Neutral (l : Lock) (m : Bool) (e : Event) : Prop where
  lock : lockAfter (some l) e = some l
  mask : maskAfter (some m) e = some m

theorem TraceInv.log (h : TraceInv s) {e : Event} (he : Neutral s.lock s.irqMask e) : TraceInv (s.log e) where
  lock := by simp [lockTrace_append, h.lock, he.lock]
  mask := by simp [maskTrace_append, h.mask, he.mask]

/-! What a command does between its acquisition and its release is neutral. -/

section Busy

variable {l : Lock} {m : Bool} (busy : l ≠ .free)
include busy

theorem neutral_regRead (off : BitVec 8) (v : Word) : Neutral l m (.regRead off v) := ⟨if_neg busy, rfl⟩

theorem neutral_regWrite (off : BitVec 8) (v : Word) : Neutral l m (.regWrite off v) := ⟨if_neg busy, rfl⟩

theorem neutral_cMemRead (a : Word) (n : Nat) (v : Word) : Neutral l m (.cMemRead a n v) := ⟨if_neg busy, rfl⟩

theorem neutral_cMemWrite (a : Word) (n : Nat) (v : Word) : Neutral l m (.cMemWrite a n v) := ⟨if_neg busy, rfl⟩

end Busy

theorem Shell.log (h : Shell s) {e : Event} (he : Neutral s.lock s.irqMask e) : Shell (s.log e) where
  lock := { h.lock with }
  wait := h.wait
  status := h.status
  trace := h.trace.log he
  memory := h.memory

theorem Inv.log (h : Inv s) {e : Event} (he : Neutral s.lock s.irqMask e) : Inv (s.log e) :=
  inv_iff.mpr ⟨h.shell.log he, h.phaseInv, h.mask.mask⟩

/-- A fault marks and logs, and the invariant stands (R245). -/
theorem Inv.raiseFault (h : Inv s) (f : Fault) : Inv (s.raiseFault f) := by
  cases hf : s.fault with
  | none =>
    have hlog : Inv (s.log (.fault f)) := h.log ⟨rfl, rfl⟩
    rw [State.raiseFault_of_none hf]
    exact hlog.of_visible_eq rfl
  | some g => rwa [State.raiseFault_of_some hf]

/-! ### The ports -/

theorem slot_setSlot (s : State) (r q : Nat) (v : Slot) :
    (s.setSlot r v).slot q = if r = q ∧ r < s.req.length then v else s.slot q := by
  by_cases hrq : r = q
  · subst hrq
    by_cases hr : r < s.req.length <;> simp [hr, State.slot, List.getD_eq_getElem?_getD]
  · simp [hrq]

/-- The values that a move may leave on a port without touching the lock (R29, R131, R161, R234). -/
def SlotAllowed (s : State) : Slot → Prop
  | .idle | .submitted _ _ _ => True
  | .waitLock code a0 a1 => s.dev = .opened ∧
    (code = 3 ∧ a1 ≠ 0 ∨ code = 4 ∧ a0 ≠ 0 ∧ (overCeiling s.cfg a0 = true → s.cfg.rejectTouchesCr1 = true))
  | .running => False
  | .done st => s.cfg.txePollLimit = none → st ≠ .etimedout

theorem LockInv.setSlot (h : LockInv s) {r : Nat} {v : Slot} (hr : s.slot r ≠ .running) (hv : SlotAllowed s v) :
    LockInv (s.setSlot r v) where
  idleIffFree := h.idleIffFree
  holder := by
    intro q hq
    obtain ⟨howner, hslot, hdev⟩ := h.holder q hq
    have hne : r ≠ q := fun e => hr (e ▸ hslot)
    exact ⟨howner, by simp [hne, hslot], hdev⟩
  runningHolds := by
    intro q hq
    rw [slot_setSlot] at hq
    split_ifs at hq
    · simp [hq, SlotAllowed] at hv
    · exact h.runningHolds q hq
  closedIdle := by
    intro closed
    rw [← Bool.not_eq_true, anyWaiting_iff]
    rintro ⟨q, code, a0, a1, hq⟩
    rw [slot_setSlot] at hq
    split_ifs at hq
    · simp [hq, SlotAllowed, show s.dev = .closed from closed] at hv
    · exact h.not_waiting_of_closed closed q code a0 a1 hq
  ports := by simpa using h.ports

theorem Shell.setSlot (h : Shell s) {r : Nat} {v : Slot} (hr : s.slot r ≠ .running) (hv : SlotAllowed s v) :
    Shell (s.setSlot r v) where
  lock := h.lock.setSlot hr hv
  wait := by
    intro q code a0 a1 hq
    rw [slot_setSlot] at hq
    split_ifs at hq
    · rw [hq] at hv
      exact hv.2
    · exact h.wait q code a0 a1 hq
  status := by
    intro unbounded q hq
    rw [slot_setSlot] at hq
    split_ifs at hq
    · rw [hq] at hv
      exact hv unbounded rfl
    · exact h.status unbounded q hq
  trace := { h.trace with }
  memory := h.memory

theorem Inv.setSlot (h : Inv s) {r : Nat} {v : Slot} (hr : s.slot r ≠ .running) (hv : SlotAllowed s v) :
    Inv (s.setSlot r v) :=
  inv_iff.mpr ⟨h.shell.setSlot hr hv, h.phaseInv, h.mask.mask⟩

theorem Inv.complete (h : Inv s) {r : Nat} {st : Status} (hr : s.slot r ≠ .running)
    (hst : s.cfg.txePollLimit = none → st ≠ .etimedout) : Inv (s.complete r st) :=
  (h.setSlot (v := .done st) hr hst).log ⟨rfl, rfl⟩

/-! ### Between acquisition and release -/

/-- The lock is held and all but phase and mask is as the invariant says. -/
structure Held (s : State) : Prop where
  shell : Shell s
  busy : s.lock ≠ .free

theorem Inv.held (h : Inv s) (hp : s.phase ≠ .idle) : Held s := ⟨h.shell, h.busy hp⟩

theorem Held.inv (h : Held s) (phase : PhaseInv s.cfg s.x s.phase) (mask : s.irqMask = inWriteLoop s.phase) : Inv s :=
  inv_iff.mpr ⟨h.shell, phase, mask⟩

namespace Held

theorem log (h : Held s) {e : Event} (he : Neutral s.lock s.irqMask e) : Held (s.log e) := ⟨h.shell.log he, h.busy⟩

theorem regRead (h : Held s) (r : Reg) (v : Word) : Held (s.regRead r v) := h.log (neutral_regRead h.busy _ v)

theorem regWrite (h : Held s) (r : Reg) (v : Word) : Held (s.regWrite r v) := h.log (neutral_regWrite h.busy _ v)

theorem cMemRead (h : Held s) (a : Word) (n : Nat) (v : Word) : Held (s.log (.cMemRead a n v)) :=
  h.log (neutral_cMemRead h.busy a n v)

theorem setX (h : Held s) {x : Regs} (owner : x.owner = s.x.owner) : Held (s.setX x) where
  shell :=
    { h.shell with
      lock := { h.shell.lock with holder := fun r hr => by simpa [owner] using h.shell.lock.holder r hr }
      trace := { h.shell.trace with } }
  busy := h.busy

theorem goto (h : Held s) {ph : Phase} (hp : ph ≠ .idle) : Held (s.goto ph) where
  shell :=
    { h.shell with
      lock := { h.shell.lock with idleIffFree := iff_of_false hp h.busy }
      trace := { h.shell.trace with } }
  busy := h.busy

/-- The sequencer goes on to a phase whose part of the invariant holds. -/
theorem proceed (h : Held s) {ph : Phase} (next : ph ≠ .idle) (facts : PhaseInv s.cfg s.x ph)
    (mask : s.irqMask = inWriteLoop ph) : Inv (s.goto ph) :=
  (h.goto next).inv facts mask

theorem maskInterrupts (h : Held s) : Held s.maskInterrupts where
  shell :=
    { (h.setX (x := { s.x with irqSaved := s.irqMask }) rfl).shell with
      lock := { (h.setX (x := { s.x with irqSaved := s.irqMask }) rfl).shell.lock with }
      trace :=
        { lock := by simp [State.maskInterrupts_eq, lockTrace_append, h.shell.trace.lock, lockAfter, h.busy]
          mask := by simp [State.maskInterrupts_eq, maskTrace_append, h.shell.trace.mask, maskAfter] } }
  busy := h.busy

theorem restoreInterrupts (h : Held s) : Held s.restoreInterrupts where
  shell :=
    { h.shell with
      lock := { h.shell.lock with }
      trace :=
        { lock := by simp [State.restoreInterrupts_eq, lockTrace_append, h.shell.trace.lock, lockAfter, h.busy]
          mask := by simp [State.restoreInterrupts_eq, maskTrace_append, h.shell.trace.mask, maskAfter] } }
  busy := h.busy

theorem cmemStore (h : Held s) (a : Word) (b : Byte) : Held (s.cmemStore a b) where
  shell :=
    { (h.log (neutral_cMemWrite h.busy a 1 (dataWord b))).shell with
      lock := { h.shell.lock with }
      trace := { (h.log (neutral_cMemWrite h.busy a 1 (dataWord b))).shell.trace with }
      memory := Memory.wf_write h.shell.memory a b }
  busy := h.busy

end Held

/-! ### Acquisition and release -/

theorem slot_takeLock {r : Nat} (hr : s.slot r ≠ .idle) (q : Nat) :
    (s.takeLock r).slot q = if r = q then .running else s.slot q := by
  simp [State.takeLock_eq, slot_setSlot, State.lt_of_slot hr]

/-- After an acquisition every slot but the new holder's is as before. -/
theorem slot_of_takeLock {r q : Nat} {v : Slot} (hr : s.slot r ≠ .idle) (hv : v ≠ .running)
    (hq : (s.takeLock r).slot q = v) : s.slot q = v := by
  rw [slot_takeLock hr] at hq
  split_ifs at hq
  · exact absurd hq.symm hv
  · exact hq

/-- The lock taken for `r` whose command starts in the phase `ph` with the registers `x`. -/
theorem Shell.start (h : Shell s) {r : Nat} {x : Regs} {ph : Phase} (free : s.lock = .free) (opened : s.dev = .opened)
    (hr : s.slot r ≠ .idle) (owner : x.owner = r) (hp : ph ≠ .idle) : Shell (((s.takeLock r).setX x).goto ph) where
  lock :=
    { idleIffFree := iff_of_false hp Lock.noConfusion
      holder := by
        intro q hq
        obtain rfl : r = q := Lock.held.inj hq
        exact ⟨owner, (slot_takeLock hr r).trans (if_pos rfl), opened⟩
      runningHolds := by
        intro q hq
        by_cases hrq : r = q
        · rw [← hrq]; rfl
        · have hs : s.slot q = .running := by simpa [slot_takeLock hr, hrq] using hq
          exact absurd ((h.lock.runningHolds q hs).symm.trans free) Lock.noConfusion
      closedIdle := fun closed => absurd (closed.symm.trans opened) Dev.noConfusion
      ports := by simpa [State.takeLock_eq] using h.lock.ports }
  wait := fun q code a0 a1 hq => h.wait q code a0 a1 (slot_of_takeLock hr Slot.noConfusion hq)
  status := fun unbounded q hq => h.status unbounded q (slot_of_takeLock hr Slot.noConfusion hq)
  trace :=
    { lock := by simp [State.takeLock_eq, lockTrace_append, h.trace.lock, lockAfter, free]
      mask := by simp [State.takeLock_eq, maskTrace_append, h.trace.mask, maskAfter] }
  memory := h.memory

/-- A command starts with the free lock of an open device (R76, R204, R209). -/
theorem Inv.start (h : Inv s) {r : Nat} {x : Regs} {ph : Phase} (free : s.lock = .free) (opened : s.dev = .opened)
    (hr : s.slot r ≠ .idle) (owner : x.owner = r) (hp : ph ≠ .idle) (phase : PhaseInv s.cfg x ph)
    (mask : inWriteLoop ph = false) : Inv (((s.takeLock r).setX x).goto ph) := by
  have unmasked : s.irqMask = false := by rw [h.mask.mask, h.phase_idle free]; rfl
  exact inv_iff.mpr ⟨h.shell.start free opened hr owner hp, phase, unmasked.trans mask.symm⟩

theorem slot_finish (h : LockInv s) (busy : s.lock ≠ .free) (st : Status) (q : Nat) :
    (s.finish st).slot q = if s.x.owner = q then .done st else s.slot q := by
  have hlt : s.x.owner < s.req.length := State.lt_of_slot (by simp [(h.owner busy).2.1])
  simp [State.finish_eq, slot_setSlot, hlt]

theorem Held.finish (h : Held s) {st : Status} (hst : s.cfg.txePollLimit = none → st ≠ .etimedout) :
    Shell (s.finish st) := by
  obtain ⟨hlock, hslot, hdev⟩ := h.shell.lock.owner h.busy
  have slots := slot_finish h.shell.lock h.busy st
  exact
    { lock :=
        { idleIffFree := iff_of_true rfl rfl
          holder := fun q hq => Lock.noConfusion hq
          runningHolds := by
            intro q hq
            rw [slots] at hq
            split_ifs at hq with howner
            exact absurd (Lock.held.inj (hlock.symm.trans (h.shell.lock.runningHolds q hq))) howner
          closedIdle := fun closed => absurd (closed.symm.trans hdev) Dev.noConfusion
          ports := by simpa [State.finish_eq] using h.shell.lock.ports }
      wait := by
        intro q code a0 a1 hq
        rw [slots] at hq
        split_ifs at hq
        exact h.shell.wait q code a0 a1 hq
      status := by
        intro unbounded q hq
        rw [slots] at hq
        split_ifs at hq
        · exact hst unbounded (Slot.done.inj hq)
        · exact h.shell.status unbounded q hq
      trace :=
        { lock := by simp [State.finish_eq, lockTrace_append, h.shell.trace.lock, lockAfter, hlock]
          mask := by simp [State.finish_eq, maskTrace_append, h.shell.trace.mask, maskAfter] }
      memory := h.shell.memory }

/-- A command ends outside the write loop (R77). -/
theorem Inv.finish (h : Inv s) {st : Status} (hp : s.phase ≠ .idle) (mask : inWriteLoop s.phase = false)
    (hst : s.cfg.txePollLimit = none → st ≠ .etimedout) : Inv (s.finish st) :=
  inv_iff.mpr ⟨(h.held hp).finish hst, trivial, h.mask.mask.trans mask⟩

/-- The device opens or closes with the lock free and, to close, nobody waiting (R24, R25). -/
theorem Inv.setDev (h : Inv s) {d : Dev} (free : s.lock = .free) (hd : d = .closed → anyWaiting s = false) :
    Inv (s.setDev d) :=
  { h with
    lock := { h.lock with holder := fun _ hr => Lock.noConfusion (free.symm.trans hr), closedIdle := hd }
    work := { h.work with }
    mask := { h.mask with }
    trace := { h.trace with } }

end Sys2Proof.Safety
end

section
/-! SUPPORT. The requesters, the handlers, the dispatcher and the acquisition of the lock keep the invariant. -/

namespace Sys2Proof.Safety

open Sys2Proof.Machine

variable {s : State}

/-! ### The requesters, the handlers and the turn -/

theorem Inv.takeTurn (h : Inv s) : Inv s.takeTurn := h.of_visible_eq rfl

theorem Inv.post (h : Inv s) : Inv s.post := h.of_visible_eq rfl

theorem Inv.lend (h : Inv s) (r : Nat) (regions : List (Nat × Nat)) : Inv (s.lend r regions) := h.of_visible_eq rfl

theorem Inv.unlend (h : Inv s) (r : Nat) : Inv (s.unlend r) := h.of_visible_eq rfl

theorem Inv.submit (h : Inv s) (r : Nat) (code a0 a1 : Word) (regions : List (Nat × Nat)) :
    Inv (submit r code a0 a1 regions s) := by
  unfold Machine.submit
  split_ifs with enabled
  · have hr : (s.lend r regions).slot r ≠ .running := fun e => Slot.noConfusion (enabled.2.symm.trans e)
    exact (h.lend r regions).setSlot (v := .submitted code a0 a1) hr trivial
  · exact h

theorem Inv.collect (h : Inv s) (r : Nat) : Inv (collect r s) := by
  unfold Machine.collect
  split
  next st hst => exact (h.unlend r).setSlot (v := .idle) (by simp [hst]) trivial
  next => exact h

theorem Inv.callerWrite (h : Inv s) (a : Word) (b : Byte) : Inv (callerWrite a b s) :=
  { h with
    lock := { h.lock with }, work := { h.work with }, mask := { h.mask with }, trace := { h.trace with }
    memory := Memory.wf_write h.memory a b }

/-! A handler's event stands outside the mask bracket (R242). -/

theorem neutral_post {l : Lock} {m : Bool} (unmasked : m = false) (line : Line) : Neutral l m (.post line) := by
  subst unmasked
  exact ⟨rfl, rfl⟩

theorem neutral_lineDisable {l : Lock} {m : Bool} (unmasked : m = false) (line : Line) :
    Neutral l m (.lineDisable line) := by
  subst unmasked
  exact ⟨rfl, rfl⟩

theorem Inv.evtHandler (h : Inv s) : Inv (evtHandler s) := by
  unfold Machine.evtHandler
  split_ifs with enabled closed
  · exact h.raiseFault _
  · have disabled : Inv { s with evtEn := false } := h.of_visible_eq rfl
    have logged := disabled.log (neutral_lineDisable enabled.2.2 .evt)
    exact logged.post.log (neutral_post enabled.2.2 .evt)
  · exact h

theorem Inv.errHandler (h : Inv s) : Inv (errHandler s) := by
  unfold Machine.errHandler
  split_ifs with enabled closed
  · exact h.raiseFault _
  · exact h.post.log (neutral_post enabled.2.2 .err)
  · exact h

/-! ### The commands -/

theorem ne_zero_of_overCeiling {p : Params} {hz : Word} (above : overCeiling p hz = true) : hz ≠ 0 := by
  rintro rfl
  exact absurd above (by simp [overCeiling, BitVec.ult])

section Commands

variable (h : Inv s) {code a0 a1 : Word} (shown : s.slot s.port = .submitted code a0 a1)
include h shown

theorem Inv.openCase : Inv (openCase s) := by
  have notRunning : s.slot s.port ≠ .running := by simp [shown]
  unfold Machine.openCase
  split_ifs with detached opened noAlloc
  · exact h.complete notRunning fun _ => Status.noConfusion
  · exact h.complete notRunning fun _ => Status.noConfusion
  · exact h.complete notRunning fun _ => Status.noConfusion
  · have free : s.lock = .free := h.lock.free_of_closed (Dev.eq_closed opened)
    have cleared : Inv { s with sig := 0 } := h.of_visible_eq rfl
    have opening : Inv { s with dev := .opened, sig := 0 } := cleared.setDev free Dev.noConfusion
    have hr : State.slot { s with dev := .opened, sig := 0 } s.port ≠ .idle := fun e =>
      Slot.noConfusion (shown.symm.trans e)
    exact opening.start free rfl hr rfl (by decide) rfl rfl

theorem Inv.closeCase : Inv (closeCase s) := by
  unfold Machine.closeCase
  split_ifs with closed busy
  · exact h.complete (by simp [shown]) fun _ => Status.noConfusion
  · exact h.raiseFault _
  · have free : s.lock = .free := by simpa using (not_or.mp busy).1
    have opened : s.dev = .opened := Dev.eq_opened closed
    exact h.start free opened (by simp [shown]) rfl (by decide) rfl rfl

theorem Inv.transferCase (messages count : Word) : Inv (transferCase messages count s) := by
  have notRunning : s.slot s.port ≠ .running := by simp [shown]
  unfold Machine.transferCase
  split_ifs with closed none
  · exact h.complete notRunning fun _ => Status.noConfusion
  · exact h.complete notRunning fun _ => Status.noConfusion
  · have opened : s.dev = .opened := Dev.eq_opened closed
    exact h.setSlot notRunning ⟨opened, .inl ⟨rfl, none⟩⟩

theorem Inv.setFrequencyCase (hz arg : Word) : Inv (setFrequencyCase hz arg s) := by
  have notRunning : s.slot s.port ≠ .running := by simp [shown]
  unfold Machine.setFrequencyCase
  split_ifs with closed above touches zero
  · exact h.complete notRunning fun _ => Status.noConfusion
  · have opened : s.dev = .opened := Dev.eq_opened closed
    exact h.setSlot notRunning ⟨opened, .inr ⟨rfl, ne_zero_of_overCeiling above, fun _ => touches⟩⟩
  · exact h.complete notRunning fun _ => Status.noConfusion
  · exact h.raiseFault _
  · have opened : s.dev = .opened := Dev.eq_opened closed
    exact h.setSlot notRunning ⟨opened, .inr ⟨rfl, zero, fun e => absurd e above⟩⟩

theorem Inv.commandEffect : Inv (commandEffect code a0 a1 s) := by
  unfold Machine.commandEffect
  split_ifs
  · exact h.openCase shown
  · exact h.closeCase shown
  · exact h.transferCase shown a0 a1
  · exact h.setFrequencyCase shown a0 a1
  · exact h.complete (by simp [shown]) fun _ => Status.noConfusion

end Commands

theorem Inv.dispatchEffect (h : Inv s) (r : Nat) : Inv (dispatchEffect r s) := by
  unfold Machine.dispatchEffect
  split
  next code a0 a1 shown =>
    have logged : Inv ((s.withPort r).log (.dispatch r code)) :=
      Inv.log (s := s.withPort r) (h.of_visible_eq rfl) ⟨rfl, rfl⟩
    exact logged.commandEffect shown
  next => exact h

/-! ### The lock -/

theorem Inv.acquire (h : Inv s) (r : Nat) : Inv (acquire r s) := by
  unfold Machine.acquire
  split
  next code a0 a1 waiting =>
    split_ifs with enabled
    · obtain ⟨free, opened⟩ := enabled
      have hr : s.slot r ≠ .idle := by simp [waiting]
      unfold startWaiting
      obtain ⟨rfl, count⟩ | ⟨rfl, hz, rejection⟩ := h.wait r code a0 a1 waiting
      · rw [if_pos rfl]
        exact h.start free opened hr rfl (by decide) ⟨rfl, by bv_omega, rfl⟩ rfl
      · rw [if_neg (by decide), if_pos rfl]
        unfold setFrequencyStart
        split_ifs with above
        · exact h.start free opened hr rfl (by decide) ⟨rfl, above, rejection above⟩ rfl
        · exact h.start free opened hr rfl (by decide) ⟨by rintro _ ⟨⟩; rfl, hz, Bool.eq_false_iff.mpr above⟩ rfl
    · exact h
  next => exact h

end Sys2Proof.Safety
end

section
/-! SUPPORT. The sequencer's phases keep the invariant; settles the statement that every step keeps it. -/

namespace Sys2Proof.Safety

open Sys2Proof.Machine

variable {s : State}

/-! ### The phases -/

theorem stdMaxHz_ne_zero {p : Params} (hp : paramsOk p = true) : p.stdMaxHz ≠ 0 := by
  simp only [paramsOk, numbersOk, Bool.and_eq_true, bne_iff_ne] at hp
  tauto

theorem not_overCeiling_stdMaxHz {p : Params} (hp : paramsOk p = true) : overCeiling p p.stdMaxHz = false := by
  have le : p.stdMaxHz.ule p.fastMaxHz = true := by
    simp only [paramsOk, numbersOk, Bool.and_eq_true] at hp
    tauto
  rw [BitVec.ule_eq_not_ult] at le
  simpa [overCeiling] using le

/-- A bounded wait admits at least one poll (R11). -/
theorem pollLimit_pos {p : Params} (hp : paramsOk p = true) {n : Nat} (hn : p.txePollLimit = some n) : 0 < n := by
  simp only [paramsOk, numbersOk, Bool.and_eq_true, bne_iff_ne, hn] at hp
  by_contra zero
  obtain rfl : n = 0 := by omega
  tauto

theorem pollLimitReached_iff {p : Params} {polls : Nat} :
    pollLimitReached p polls = true ↔ ∃ n, p.txePollLimit = some n ∧ n ≤ polls := by
  unfold pollLimitReached
  cases p.txePollLimit <;> simp

/-- One access and the next phase of the same command, in or out of the write loop as before. -/
theorem Inv.access (h : Inv s) (hp : s.phase ≠ .idle) {e : Event} {x : Regs} {ph : Phase}
    (he : Neutral s.lock s.irqMask e) (owner : x.owner = s.x.owner) (next : ph ≠ .idle)
    (loop : inWriteLoop s.phase = inWriteLoop ph) (facts : PhaseInv s.cfg x ph) : Inv (((s.log e).setX x).goto ph) :=
  (((h.held hp).log he).setX owner).proceed next facts (h.mask.mask.trans loop)

section Busy

variable (h : Inv s) (hp : s.phase ≠ .idle)
include h hp

theorem Inv.clDisable (hph : s.phase = .clDisable) : Inv (clDisable s) := by
  have written := h.log (neutral_regWrite (h.busy hp) (regOffset .cr1) (disableWord s.cfg s.x.tmp))
  have slots := slot_finish h.lock (h.busy hp) .ok
  unfold Machine.clDisable
  dsimp only
  split_ifs with waiting
  · exact written.raiseFault _
  · have finished : Inv ((s.regWrite .cr1 (disableWord s.cfg s.x.tmp)).finish .ok) :=
      written.finish hp (congrArg inWriteLoop hph) fun _ => Status.noConfusion
    refine finished.setDev (d := .closed) rfl fun _ => ?_
    rw [← Bool.not_eq_true, anyWaiting_iff]
    rintro ⟨q, code, a0, a1, hq⟩
    have hq' : (s.finish .ok).slot q = .waitLock code a0 a1 := hq
    rw [slots] at hq'
    split_ifs at hq'
    exact waiting (anyWaiting_iff.mpr ⟨q, code, a0, a1, hq'⟩)

theorem Inv.sfRestore (hph : s.phase = .sfRestore) : Inv (sfRestore s) := by
  have access : Neutral s.lock s.irqMask (.regWrite (regOffset .cr1) s.x.old) := neutral_regWrite (h.busy hp) _ _
  have loop : inWriteLoop s.phase = false := congrArg inWriteLoop hph
  unfold Machine.sfRestore
  split
  next => exact (h.log access).finish hp loop fun _ => Status.noConfusion
  next opening =>
    have facts : RoutineInv s.x := by simpa [hph, PhaseInv] using h.phaseInv
    exact h.access hp access rfl (by decide) loop (facts 1 (by simp [codeOf, opening]))

/-- The status reads after start and address (R166, R168). -/
theorem Inv.checkedStatus (v : Word) {good : Phase} (hgood : good ≠ .idle) (loop : inWriteLoop s.phase = false)
    (loop' : inWriteLoop good = false) (message : MessageInv s.x)
    (facts : ∀ x, MessageInv x → PhaseInv s.cfg x good) : Inv (checkedStatus v good s) := by
  have access : Neutral s.lock s.irqMask (.regRead (regOffset .sr1) v) := neutral_regRead (h.busy hp) _ _
  obtain ⟨op, index, error⟩ := message
  unfold Machine.checkedStatus
  dsimp only
  split_ifs with failed
  · have err : firstError s.x.err .ebus = .ebus := by simp [firstError, error]
    have aborted := h.access (x := { s.x with sr := v, err := firstError s.x.err .ebus }) (ph := .txStop) hp access rfl
      (by decide) loop ⟨op, .inr (.inl err)⟩
    exact aborted.of_visible_eq rfl
  · exact h.access hp access rfl hgood (loop.trans loop'.symm) (facts _ ⟨op, index, error⟩)

theorem Inv.txFetch (hph : s.phase = .txFetch) (message : MessageInv s.x) : Inv (txFetch s) := by
  have loop : inWriteLoop s.phase = false := congrArg inWriteLoop hph
  have read (a v : Word) : Neutral s.lock s.irqMask (.cMemRead a 4 v) := neutral_cMemRead (h.busy hp) a 4 v
  unfold Machine.txFetch
  dsimp only
  split_ifs
  · exact h.raiseFault _
  split
  · exact h.raiseFault _
  split
  · exact (h.log (read _ _)).raiseFault _
  split
  · exact ((h.log (read _ _)).log (read _ _)).raiseFault _
  · exact ((h.log (read _ _)).log (read _ _)).access hp (read _ _) rfl (by decide) loop
      ⟨message.op, message.index, message.error⟩

theorem Inv.txData (hph : s.phase = .txData) (hc : paramsOk s.cfg = true) (message : MessageInv s.x) :
    Inv (txData s) := by
  have unmasked : s.irqMask = false := h.mask.mask.trans (congrArg inWriteLoop hph)
  have held : Held (s.setX { s.x with bi := 0 }) := (h.held hp).setX rfl
  have bracket := held.maskInterrupts.setX (x := { s.x with bi := 0, irqSaved := s.irqMask, polls := 0 }) rfl
  obtain ⟨op, index, error⟩ := message
  have pos : s.x.len ≠ 0 → (0 : Word) < s.x.len := by intro; bv_omega
  unfold Machine.txData
  dsimp only
  split_ifs with reading empty empty
  · exact held.proceed (by decide) ⟨op, index, error⟩ unmasked
  · exact held.proceed (by decide) ⟨⟨op, index, error⟩, pos empty, reading⟩ unmasked
  · exact bracket.restoreInterrupts.proceed (by decide) ⟨op, index, error⟩ unmasked
  · have writing : s.x.rd = 0 := (BitVec.eq_zero_or_eq_one s.x.rd).resolve_right reading
    exact bracket.proceed (by decide)
      ⟨⟨op, index, error⟩, pos empty, writing, unmasked, fun n hn => pollLimit_pos hc hn⟩ rfl

theorem Inv.txRdByte (v : Word) (hph : s.phase = .txRdByte) (message : MessageInv s.x) (reading : s.x.rd = 1) :
    Inv (txRdByte v s) := by
  have unmasked : s.irqMask = false := h.mask.mask.trans (congrArg inWriteLoop hph)
  have access : Neutral s.lock s.irqMask (.regRead (regOffset .dr) v) := neutral_regRead (h.busy hp) _ _
  have stored := ((h.held hp).log access).cmemStore (byteAddress s.x) (v.extractLsb' 0 8)
  have counted := stored.setX (x := { s.x with bi := s.x.bi + 1 }) rfl
  obtain ⟨op, index, error⟩ := message
  unfold Machine.txRdByte
  dsimp only
  split_ifs with admitted more
  · exact counted.proceed (by decide) ⟨⟨op, index, error⟩, BitVec.ult_iff_lt.mp more, reading⟩ unmasked
  · exact counted.proceed (by decide) ⟨op, index, error⟩ unmasked
  · exact (h.log access).raiseFault _

theorem Inv.txWrPoll (v : Word) (hph : s.phase = .txWrPoll) : Inv (txWrPoll v s) := by
  have access : Neutral s.lock s.irqMask (.regRead (regOffset .sr1) v) := neutral_regRead (h.busy hp) _ _
  have loop : inWriteLoop s.phase = true := congrArg inWriteLoop hph
  have facts := h.phaseInv
  rw [hph] at facts
  obtain ⟨⟨op, index, error⟩, byte, writing, saved, -⟩ := facts
  unfold Machine.txWrPoll
  dsimp only
  split_ifs with empty reached
  · exact h.access hp access rfl (by decide) loop ⟨⟨op, index, error⟩, byte, writing, saved⟩
  · obtain ⟨n, bounded, -⟩ := pollLimitReached_iff.mp reached
    have limited : s.cfg.txePollLimit ≠ none := by simp [bounded]
    have err : firstError s.x.err .etimedout = .etimedout := by simp [firstError, error]
    have polled := ((h.held hp).log access).setX (x := { s.x with sr := v, polls := s.x.polls + 1 }) rfl
    have failed := polled.restoreInterrupts.setX
      (x := { s.x with sr := v, polls := s.x.polls + 1, err := firstError s.x.err .etimedout }) rfl
    exact failed.proceed (by decide) ⟨op, .inr (.inr ⟨err, limited⟩)⟩ saved
  · refine h.access hp access rfl (by decide) loop
      ⟨⟨op, index, error⟩, byte, writing, saved, fun n hn => ?_⟩
    by_contra le
    exact reached (pollLimitReached_iff.mpr ⟨n, hn, Nat.le_of_not_lt le⟩)

theorem Inv.txWrByte (hph : s.phase = .txWrByte) (hc : paramsOk s.cfg = true) : Inv (txWrByte s) := by
  have masked : s.irqMask = true := h.mask.mask.trans (congrArg inWriteLoop hph)
  have facts := h.phaseInv
  rw [hph] at facts
  obtain ⟨⟨op, index, error⟩, byte, writing, saved⟩ := facts
  unfold Machine.txWrByte
  split
  · exact h.raiseFault _
  next b _ =>
    have sent := (((h.held hp).cMemRead (byteAddress s.x) 1 (dataWord b)).regWrite .dr (dataWord b)).setX
      (x := { s.x with bi := s.x.bi + 1, polls := 0 }) rfl
    dsimp only
    split_ifs with more
    · exact sent.proceed (by decide)
        ⟨⟨op, index, error⟩, BitVec.ult_iff_lt.mp more, writing, saved, fun n hn => pollLimit_pos hc hn⟩ masked
    · exact sent.restoreInterrupts.proceed (by decide) ⟨op, index, error⟩ saved

theorem Inv.txNext (hph : s.phase = .txNext) (message : MessageInv s.x) : Inv (txNext s) := by
  have unmasked : s.irqMask = false := h.mask.mask.trans (congrArg inWriteLoop hph)
  obtain ⟨op, index, error⟩ := message
  unfold Machine.txNext
  split_ifs with more
  · have advanced : Held (s.setX { s.x with mi := s.x.mi + 1 }) := (h.held hp).setX rfl
    exact advanced.proceed (by decide) ⟨op, BitVec.ult_iff_lt.mp more, error⟩ unmasked
  · exact (h.held hp).proceed (by decide) ⟨op, .inl error⟩ unmasked

end Busy

theorem Inv.phaseEffect (h : Inv s) (hc : paramsOk s.cfg = true) (v : Word) : Inv (phaseEffect v s) := by
  by_cases hp : s.phase = .idle
  · simpa [Machine.phaseEffect, hp] using h
  have busy := h.busy hp
  obtain ⟨ph, hph⟩ : ∃ ph, s.phase = ph := ⟨_, rfl⟩
  have facts : PhaseInv s.cfg s.x ph := hph ▸ h.phaseInv
  have loop : inWriteLoop s.phase = inWriteLoop ph := by rw [hph]
  unfold Machine.phaseEffect
  rw [hph]
  cases ph with
  | idle => exact absurd hph hp
  | sfRdCr1 => exact h.access hp (neutral_regRead busy _ v) rfl (by decide) loop facts
  | sfDisable =>
    obtain ⟨code, hz, range⟩ := facts
    exact h.access hp (neutral_regWrite busy _ _) rfl (by decide) loop ⟨code, hz, range, rfl⟩
  | sfWrCcr => exact h.access hp (neutral_regWrite busy _ _) (x := s.x) rfl (by decide) loop facts
  | sfWrTrise => exact h.access hp (neutral_regWrite busy _ _) (x := s.x) rfl (by decide) loop facts.1
  | sfRestore => exact h.sfRestore hp hph
  | sfrRdCr1 => exact h.access hp (neutral_regRead busy _ v) rfl (by decide) loop facts
  | sfrDisable => exact h.access hp (neutral_regWrite busy _ _) (x := s.x) rfl (by decide) loop facts
  | sfrRestore => exact (h.log (neutral_regWrite busy _ _)).finish hp loop fun _ => Status.noConfusion
  | opWrCr2 =>
    have code : RoutineInv { s.x with hz := s.cfg.stdMaxHz, ret := .opening } := by rintro _ ⟨⟩; exact facts
    exact h.access hp (neutral_regWrite busy _ _) rfl (by decide) loop
      ⟨code, stdMaxHz_ne_zero hc, not_overCeiling_stdMaxHz hc⟩
  | opRdCr1 => exact h.access hp (neutral_regRead busy _ v) rfl (by decide) loop facts
  | opEnable => exact (h.log (neutral_regWrite busy _ _)).finish hp loop fun _ => Status.noConfusion
  | clRdCr1 => exact h.access hp (neutral_regRead busy _ v) rfl (by decide) loop facts
  | clDisable => exact h.clDisable hp hph
  | txFetch => exact h.txFetch hp hph facts
  | txStart => exact h.access hp (neutral_regWrite busy _ _) (x := s.x) rfl (by decide) loop facts
  | txStartSt => exact h.checkedStatus hp v (by decide) loop rfl facts fun _ => id
  | txAddr => exact h.access hp (neutral_regWrite busy _ _) (x := s.x) rfl (by decide) loop facts
  | txAddrSt => exact h.checkedStatus hp v (by decide) loop rfl facts fun _ => id
  | txAddrClr => exact h.access hp (neutral_regRead busy _ v) (x := s.x) rfl (by decide) loop facts
  | txData => exact h.txData hp hph hc facts
  | txRdByte => exact h.txRdByte hp v hph facts.1 facts.2.2
  | txWrPoll => exact h.txWrPoll hp v hph
  | txWrByte => exact h.txWrByte hp hph hc
  | txNext => exact h.txNext hp hph facts
  | txStop => exact h.access hp (neutral_regWrite busy _ _) (x := s.x) rfl (by decide) loop facts
  | txDone =>
    obtain ⟨-, ok | failed | ⟨-, limited⟩⟩ := facts
    · exact h.finish hp loop fun _ => by simp [ok]
    · exact h.finish hp loop fun _ => by simp [failed]
    · exact h.finish hp loop fun unbounded => absurd unbounded limited

/-- Every agent's move keeps the invariant. -/
theorem Inv.moveEffect (h : Inv s) (hc : paramsOk s.cfg = true) (m : Move) : Inv (moveEffect m s) := by
  cases m with
  | submit r code a0 a1 regions => exact h.submit r code a0 a1 regions
  | collect r => exact h.collect r
  | callerWrite a b => exact h.callerWrite a b
  | dispatch r => exact h.dispatchEffect r
  | acquire r => exact h.acquire r
  | sequencer v => exact h.phaseEffect hc v
  | evtHandler => exact h.evtHandler
  | errHandler => exact h.errHandler

end Sys2Proof.Safety

namespace Sys2Proof.Proofs

open Sys2Proof.Machine Sys2Proof.Safety

/-- Settles O43: taking the turn touches nothing the invariant speaks of, and every move keeps it. -/
theorem stepKeepsTheInvariant : Obligations.StepKeepsTheInvariant := by
  intro s t h hs
  obtain ⟨live, rfl⟩ := step_eq_next.mp hs
  exact h.takeTurn.moveEffect (State.halted_eq_none.mp live).2 _

end Sys2Proof.Proofs
end

section
/-! SUPPORT. Settles that no rule reads a working register before the running command has written it (10_state.md R21). -/

namespace Sys2Proof.Safety

open Sys2Proof.Machine

variable {s : State}

/-! ### Moves that leave the working registers alone -/

/-- Reads and writes neither the working registers nor the phase. -/
structure Inert (f : State → State) : Prop where
  setX : ∀ (s : State) (x : Regs), f (s.setX x) = (f s).setX x
  phase : ∀ s : State, (f s).phase = s.phase

@[simp] theorem keep_keep {α : Type} (live : Bool) (v d : α) : keep live (keep live v d) d = keep live v d := by
  cases live <;> rfl

theorem neededRegs_neededRegs (ph : Phase) (x : Regs) : neededRegs ph (neededRegs ph x) = neededRegs ph x := by
  simp [neededRegs]

@[simp] theorem needed_needed (s : State) : needed (needed s) = needed s :=
  congrArg s.setX (neededRegs_neededRegs s.phase s.x)

/-- With the phase known, so are the registers that are kept. -/
theorem needed_eq {ph : Phase} (hph : s.phase = ph) : needed s = s.setX (neededRegs ph s.x) := by
  rw [← hph]
  rfl

namespace Inert

variable {f g : State → State}

theorem comp (hf : Inert f) (hg : Inert g) : Inert fun s => g (f s) where
  setX s x := by simp only [hf.setX, hg.setX]
  phase s := (hg.phase _).trans (hf.phase s)

theorem regs (hf : Inert f) (s : State) : (f s).x = s.x := by
  have reset : f s = (f s).setX s.x := hf.setX s s.x
  rw [reset]
  rfl

/-- Such a move does not see that registers were reset. -/
theorem needed (hf : Inert f) (s : State) : needed (f (needed s)) = needed (f s) := by
  have reset : f (Safety.needed s) = Safety.needed (f s) := by
    rw [Safety.needed, Safety.needed, hf.setX, hf.phase, hf.regs]
  rw [reset, needed_needed]

theorem log (e : Event) : Inert fun s => s.log e := ⟨fun _ _ => rfl, fun _ => rfl⟩

theorem setSlot (r : Nat) (v : Slot) : Inert fun s => s.setSlot r v := ⟨fun _ _ => rfl, fun _ => rfl⟩

theorem complete (r : Nat) (st : Status) : Inert fun s => s.complete r st := ⟨fun _ _ => rfl, fun _ => rfl⟩

theorem callerWrite (a : Word) (b : Byte) : Inert (callerWrite a b) := ⟨fun _ _ => rfl, fun _ => rfl⟩

theorem raiseFault (e : Fault) : Inert fun s => s.raiseFault e where
  setX s x := by
    unfold State.raiseFault
    rw [State.setX_fault]
    split <;> rfl
  phase s := s.raiseFault_phase e

theorem submit (r : Nat) (code a0 a1 : Word) (regions : List (Nat × Nat)) : Inert (submit r code a0 a1 regions) where
  setX s x := by
    unfold Machine.submit
    simp only [State.setX_req, State.slot_setX]
    split_ifs <;> rfl
  phase s := by
    unfold Machine.submit
    split_ifs <;> rfl

theorem collect (r : Nat) : Inert (collect r) where
  setX s x := by
    unfold Machine.collect
    simp only [State.slot_setX]
    split <;> rfl
  phase s := by
    unfold Machine.collect
    split <;> rfl

theorem evtHandler : Inert evtHandler where
  setX s x := by
    unfold Machine.evtHandler
    simp only [State.setX_evtLine, State.setX_evtEn, State.setX_irqMask, State.setX_dev, (raiseFault _).setX]
    split_ifs <;> rfl
  phase s := by
    unfold Machine.evtHandler
    split_ifs <;> simp

theorem errHandler : Inert errHandler where
  setX s x := by
    unfold Machine.errHandler
    simp only [State.setX_errLine, State.setX_errEn, State.setX_irqMask, State.setX_dev, (raiseFault _).setX]
    split_ifs <;> rfl
  phase s := by
    unfold Machine.errHandler
    split_ifs <;> simp

end Inert

/-! ### The dispatcher and the lock -/

theorem needed_ite {c c' : Prop} [Decidable c] [Decidable c'] {t t' u u' : State} (same : c' ↔ c)
    (yes : c → needed t' = needed t) (no : ¬c → needed u' = needed u) :
    needed (if c' then t' else u') = needed (if c then t else u) := by
  by_cases h : c
  · rw [if_pos (same.mpr h), if_pos h, yes h]
  · rw [if_neg (mt same.mp h), if_neg h, no h]

theorem needed_goto_ite {c c' : Prop} [Decidable c] [Decidable c'] {t t' : State} {p q : Phase} (same : c' ↔ c)
    (yes : needed (t'.goto p) = needed (t.goto p)) (no : needed (t'.goto q) = needed (t.goto q)) :
    needed (t'.goto (if c' then p else q)) = needed (t.goto (if c then p else q)) := by
  rw [apply_ite t'.goto, apply_ite t.goto]
  exact needed_ite same (fun _ => yes) fun _ => no

theorem openCase_needed (s : State) : needed (openCase (needed s)) = needed (openCase s) :=
  needed_ite .rfl (fun _ => (Inert.complete ..).needed s) fun _ =>
    needed_ite .rfl (fun _ => (Inert.complete ..).needed s) fun _ =>
      needed_ite .rfl (fun _ => (Inert.complete ..).needed s) fun _ => rfl

theorem closeCase_needed (s : State) : needed (closeCase (needed s)) = needed (closeCase s) :=
  needed_ite .rfl (fun _ => (Inert.complete ..).needed s) fun _ =>
    needed_ite .rfl (fun _ => (Inert.raiseFault _).needed s) fun _ => rfl

theorem transferCase_needed (messages count : Word) (s : State) :
    needed (transferCase messages count (needed s)) = needed (transferCase messages count s) :=
  needed_ite .rfl (fun _ => (Inert.complete ..).needed s) fun _ =>
    needed_ite .rfl (fun _ => (Inert.complete ..).needed s) fun _ => (Inert.setSlot ..).needed s

theorem setFrequencyCase_needed (hz a1 : Word) (s : State) :
    needed (setFrequencyCase hz a1 (needed s)) = needed (setFrequencyCase hz a1 s) :=
  needed_ite .rfl (fun _ => (Inert.complete ..).needed s) fun _ =>
    needed_ite .rfl
      (fun _ =>
        needed_ite .rfl (fun _ => (Inert.setSlot ..).needed s) fun _ => (Inert.complete ..).needed s)
      fun _ =>
        needed_ite .rfl (fun _ => (Inert.raiseFault _).needed s) fun _ => (Inert.setSlot ..).needed s

theorem commandEffect_needed (code a0 a1 : Word) (s : State) :
    needed (commandEffect code a0 a1 (needed s)) = needed (commandEffect code a0 a1 s) := by
  unfold commandEffect
  split_ifs
  · exact openCase_needed s
  · exact closeCase_needed s
  · exact transferCase_needed a0 a1 s
  · exact setFrequencyCase_needed a0 a1 s
  · exact (Inert.complete ..).needed s

theorem dispatchEffect_needed (r : Nat) (s : State) :
    needed (dispatchEffect r (needed s)) = needed (dispatchEffect r s) := by
  unfold dispatchEffect
  rw [show (needed s).slot r = s.slot r from rfl]
  split
  next code a0 a1 _ => exact commandEffect_needed code a0 a1 ((s.withPort r).log (.dispatch r code))
  next => exact needed_needed s

theorem setFrequencyStart_needed (r : Nat) (hz : Word) (s : State) :
    needed (setFrequencyStart hz ((needed s).takeLock r)) = needed (setFrequencyStart hz (s.takeLock r)) := by
  unfold setFrequencyStart
  exact needed_goto_ite .rfl rfl rfl

theorem startWaiting_needed (r : Nat) (code a0 a1 : Word) (s : State) :
    needed (startWaiting r code a0 a1 (needed s)) = needed (startWaiting r code a0 a1 s) :=
  needed_ite .rfl (fun _ => rfl) fun _ =>
    needed_ite .rfl (fun _ => setFrequencyStart_needed r a0 s) fun _ => needed_needed s

theorem acquire_needed (r : Nat) (s : State) : needed (acquire r (needed s)) = needed (acquire r s) := by
  have slot : (needed s).slot r = s.slot r := rfl
  unfold acquire
  rw [slot]
  split
  · exact needed_ite .rfl (fun _ => startWaiting_needed ..) fun _ => needed_needed s
  · exact needed_needed s

/-! ### The phases -/

theorem sfRestore_needed (hph : s.phase = .sfRestore) : needed (sfRestore (needed s)) = needed (sfRestore s) := by
  have ret : (needed s).x.ret = s.x.ret := by rw [needed_eq hph]; rfl
  unfold sfRestore
  rw [ret, needed_eq hph]
  split <;> rfl

theorem clDisable_needed (hph : s.phase = .clDisable) : needed (clDisable (needed s)) = needed (clDisable s) := by
  have tmp : (needed s).x.tmp = s.x.tmp := by rw [needed_eq hph]; rfl
  unfold clDisable
  rw [tmp]
  refine needed_ite .rfl (fun _ => ((Inert.log _).comp (Inert.raiseFault _)).needed s) fun _ => ?_
  rw [needed_eq hph]
  rfl

theorem txFetch_needed (hph : s.phase = .txFetch) : needed (txFetch (needed s)) = needed (txFetch s) := by
  have msgs : (needed s).x.msgs = s.x.msgs := by rw [needed_eq hph]; rfl
  have address : descriptorAddress (needed s).x = descriptorAddress s.x := by rw [needed_eq hph]; rfl
  have word (a : Word) : (needed s).cmemWord a = s.cmemWord a := by rw [needed_eq hph]; rfl
  unfold txFetch
  refine needed_ite (by rw [msgs]) (fun _ => (Inert.raiseFault _).needed s) fun _ => ?_
  simp only [address, word]
  split
  · exact (Inert.raiseFault _).needed s
  split
  · exact ((Inert.log _).comp (Inert.raiseFault _)).needed s
  split
  · exact ((Inert.log _).comp ((Inert.log _).comp (Inert.raiseFault _))).needed s
  · rw [needed_eq hph]; rfl

theorem txStartSt_needed (v : Word) (hph : s.phase = .txStartSt) :
    needed (txStartSt v (needed s)) = needed (txStartSt v s) := by
  rw [needed_eq hph]
  exact needed_ite .rfl (fun _ => rfl) fun _ => rfl

theorem txAddrSt_needed (v : Word) (hph : s.phase = .txAddrSt) :
    needed (txAddrSt v (needed s)) = needed (txAddrSt v s) := by
  rw [needed_eq hph]
  exact needed_ite .rfl (fun _ => rfl) fun _ => rfl

theorem txData_needed (hph : s.phase = .txData) : needed (txData (needed s)) = needed (txData s) := by
  rw [needed_eq hph]
  exact needed_ite .rfl (fun _ => needed_goto_ite .rfl rfl rfl) fun _ => needed_ite .rfl (fun _ => rfl) fun _ => rfl

theorem txRdByte_needed (v : Word) (hph : s.phase = .txRdByte) :
    needed (txRdByte v (needed s)) = needed (txRdByte v s) := by
  have address : byteAddress (needed s).x = byteAddress s.x := by rw [needed_eq hph]; rfl
  have admits (a n : Nat) : (needed s).admits a n = s.admits a n := by rw [needed_eq hph]; rfl
  unfold txRdByte
  refine needed_ite (by rw [address, admits]) (fun _ => ?_) fun _ => ((Inert.log _).comp (Inert.raiseFault _)).needed s
  rw [needed_eq hph]
  exact needed_goto_ite .rfl rfl rfl

theorem txWrPoll_needed (v : Word) (hph : s.phase = .txWrPoll) :
    needed (txWrPoll v (needed s)) = needed (txWrPoll v s) := by
  rw [needed_eq hph]
  exact needed_ite .rfl (fun _ => rfl) fun _ => needed_ite .rfl (fun _ => rfl) fun _ => rfl

theorem txWrByte_needed (hph : s.phase = .txWrByte) : needed (txWrByte (needed s)) = needed (txWrByte s) := by
  have address : byteAddress (needed s).x = byteAddress s.x := by rw [needed_eq hph]; rfl
  have byte (a : Word) : (needed s).cmemByte a = s.cmemByte a := by rw [needed_eq hph]; rfl
  unfold txWrByte
  rw [address, byte]
  split
  · exact (Inert.raiseFault _).needed s
  · rw [needed_eq hph]
    exact needed_ite .rfl (fun _ => rfl) fun _ => rfl

theorem txNext_needed (hph : s.phase = .txNext) : needed (txNext (needed s)) = needed (txNext s) := by
  rw [needed_eq hph]
  exact needed_ite .rfl (fun _ => rfl) fun _ => rfl

theorem phaseEffect_needed (v : Word) (s : State) : needed (phaseEffect v (needed s)) = needed (phaseEffect v s) := by
  unfold phaseEffect
  rw [show (needed s).phase = s.phase from rfl]
  cases hph : s.phase with
  | idle => exact needed_needed s
  | sfRestore => exact sfRestore_needed hph
  | clDisable => exact clDisable_needed hph
  | txFetch => exact txFetch_needed hph
  | txStartSt => exact txStartSt_needed v hph
  | txAddrSt => exact txAddrSt_needed v hph
  | txData => exact txData_needed hph
  | txRdByte => exact txRdByte_needed v hph
  | txWrPoll => exact txWrPoll_needed v hph
  | txWrByte => exact txWrByte_needed hph
  | txNext => exact txNext_needed hph
  | _ => rw [needed_eq hph]; rfl

theorem moveEffect_needed (m : Move) (s : State) : needed (moveEffect m (needed s)) = needed (moveEffect m s) := by
  cases m with
  | submit r code a0 a1 regions => exact (Inert.submit r code a0 a1 regions).needed s
  | collect r => exact (Inert.collect r).needed s
  | callerWrite a b => exact (Inert.callerWrite a b).needed s
  | dispatch r => exact dispatchEffect_needed r s
  | acquire r => exact acquire_needed r s
  | sequencer v => exact phaseEffect_needed v s
  | evtHandler => exact Inert.evtHandler.needed s
  | errHandler => exact Inert.errHandler.needed s

end Sys2Proof.Safety

namespace Sys2Proof.Proofs

open Sys2Proof.Machine Sys2Proof.Safety

/-- Settles O46: resetting the registers changes neither whether the machine is stopped nor whose turn it is, and every
move then gives the same state up to what its new phase needs. -/
theorem noRegisterReadBeforeWritten : Obligations.NoRegisterReadBeforeWritten := by
  intro s
  cases h : s.halted with
  | none =>
    rw [step_of_live h, step_of_live (s := needed s) h]
    exact congrArg Host.Outcome.next (moveEffect_needed s.turn.move s.takeTurn)
  | some f => rw [step_of_halted h, step_of_halted (s := needed s) h]

end Sys2Proof.Proofs
end

section
/-! SUPPORT. Settles who writes the device state and the interrupt mask (10_state.md R24, R27), and what submit and collect do (R29). -/

namespace Sys2Proof.Machine

/-! ### The requesters -/

theorem submit_of_idle {s : State} {r : Nat} (hr : r < s.req.length) (idle : s.slot r = .idle) (code a0 a1 : Word)
    (regions : List (Nat × Nat)) :
    submit r code a0 a1 regions s = (s.lend r regions).setSlot r (.submitted code a0 a1) :=
  if_pos ⟨hr, idle⟩

theorem submit_of_not_idle {s : State} {r : Nat} (h : s.slot r ≠ .idle) (code a0 a1 : Word)
    (regions : List (Nat × Nat)) : submit r code a0 a1 regions s = s :=
  if_neg fun enabled => h enabled.2

theorem submit_of_no_port {s : State} {r : Nat} (h : s.req.length ≤ r) (code a0 a1 : Word)
    (regions : List (Nat × Nat)) : submit r code a0 a1 regions s = s :=
  if_neg fun enabled => Nat.not_lt.mpr h enabled.1

theorem collect_of_done {s : State} {r : Nat} {st : Status} (h : s.slot r = .done st) :
    collect r s = (s.unlend r).setSlot r .idle := by
  simp [collect, h]

theorem collect_of_not_done {s : State} {r : Nat} (h : ∀ st, s.slot r ≠ .done st) : collect r s = s := by
  unfold collect
  split
  next st hst => exact absurd hst (h st)
  next => rfl

/-- A port that does not exist reads idle (log 28). -/
theorem State.slot_of_no_port {s : State} {r : Nat} (h : s.req.length ≤ r) : s.slot r = .idle := by
  by_contra busy
  exact Nat.not_lt.mpr h (State.lt_of_slot busy)

/-! ### Who writes the device state and the interrupt mask -/

/-- The device state and the interrupt mask stand. -/
structure SameGates (s t : State) : Prop where
  dev : t.dev = s.dev
  irqMask : t.irqMask = s.irqMask

namespace SameGates

variable {s t : State}

@[simp] theorem refl (s : State) : SameGates s s := ⟨rfl, rfl⟩

@[simp] theorem log (h : SameGates s t) (ev : Event) : SameGates s (t.log ev) := ⟨h.dev, h.irqMask⟩

@[simp] theorem raiseFault (h : SameGates s t) (f : Fault) : SameGates s (t.raiseFault f) :=
  ⟨by simp [h.dev], by simp [h.irqMask]⟩

@[simp] theorem complete (h : SameGates s t) (r : Nat) (st : Status) : SameGates s (t.complete r st) :=
  ⟨h.dev, h.irqMask⟩

end SameGates

theorem closeCase_sameGates (s : State) : SameGates s (closeCase s) := by
  unfold closeCase
  split_ifs
  · simp
  · simp
  · exact ⟨rfl, rfl⟩

theorem transferCase_sameGates (messages count : Word) (s : State) : SameGates s (transferCase messages count s) := by
  unfold transferCase
  split_ifs <;> exact ⟨rfl, rfl⟩

theorem setFrequencyCase_sameGates (hz a1 : Word) (s : State) : SameGates s (setFrequencyCase hz a1 s) := by
  unfold setFrequencyCase
  split_ifs
  · simp
  · exact ⟨rfl, rfl⟩
  · simp
  · simp
  · exact ⟨rfl, rfl⟩

/-- OPEN opens a closed device or leaves the device state (R204). -/
theorem openCase_dev (s : State) : (openCase s).dev = s.dev ∨ s.dev = .closed ∧ (openCase s).dev = .opened := by
  unfold openCase
  split_ifs with detached opened noAlloc
  · exact .inl rfl
  · exact .inl rfl
  · exact .inl rfl
  · exact .inr ⟨Dev.eq_closed opened, rfl⟩

theorem openCase_irqMask (s : State) : (openCase s).irqMask = s.irqMask := by
  unfold openCase
  split_ifs <;> rfl

theorem commandEffect_sameGates {code : Word} (h : code ≠ 1) (a0 a1 : Word) (s : State) :
    SameGates s (commandEffect code a0 a1 s) := by
  unfold commandEffect
  rw [if_neg h]
  split_ifs
  · exact closeCase_sameGates s
  · exact transferCase_sameGates a0 a1 s
  · exact setFrequencyCase_sameGates a0 a1 s
  · simp

theorem acquire_sameGates (r : Nat) (s : State) : SameGates s (acquire r s) := by
  unfold acquire startWaiting
  split
  · split_ifs <;> exact ⟨rfl, rfl⟩
  · simp

theorem evtHandler_sameGates (s : State) : SameGates s (evtHandler s) := by
  unfold evtHandler
  split_ifs
  · simp
  · exact ⟨rfl, rfl⟩
  · simp

theorem errHandler_sameGates (s : State) : SameGates s (errHandler s) := by
  unfold errHandler
  split_ifs
  · simp
  · exact ⟨rfl, rfl⟩
  · simp

theorem submit_sameGates (r : Nat) (code a0 a1 : Word) (regions : List (Nat × Nat)) (s : State) :
    SameGates s (submit r code a0 a1 regions s) := by
  unfold submit
  split_ifs <;> exact ⟨rfl, rfl⟩

theorem collect_sameGates (r : Nat) (s : State) : SameGates s (collect r s) := by
  unfold collect
  split <;> exact ⟨rfl, rfl⟩

/-! ### The phases -/

theorem sfRestore_sameGates (s : State) : SameGates s (sfRestore s) := by
  unfold sfRestore
  split <;> exact ⟨rfl, rfl⟩

theorem txFetch_sameGates (s : State) : SameGates s (txFetch s) := by
  unfold txFetch
  split_ifs
  · simp
  dsimp only
  split
  · simp
  split
  · simp
  split
  · exact .raiseFault (.log (.log (.refl s) _) _) _
  · exact ⟨rfl, rfl⟩

theorem checkedStatus_sameGates (v : Word) (good : Phase) (s : State) : SameGates s (checkedStatus v good s) := by
  unfold checkedStatus
  dsimp only
  split_ifs <;> exact ⟨rfl, rfl⟩

theorem txRdByte_sameGates (v : Word) (s : State) : SameGates s (txRdByte v s) := by
  unfold txRdByte
  dsimp only
  split_ifs
  · exact ⟨rfl, rfl⟩
  · exact ⟨rfl, rfl⟩
  · simp

theorem txNext_sameGates (s : State) : SameGates s (txNext s) := by
  unfold txNext
  split_ifs <;> exact ⟨rfl, rfl⟩

theorem txData_dev (s : State) : (txData s).dev = s.dev := by
  unfold txData
  dsimp only
  split_ifs <;> rfl

theorem txWrPoll_dev (v : Word) (s : State) : (txWrPoll v s).dev = s.dev := by
  unfold txWrPoll
  dsimp only
  split_ifs <;> rfl

theorem txWrByte_dev (s : State) : (txWrByte s).dev = s.dev := by
  unfold txWrByte
  split
  · simp
  · dsimp only
    split_ifs <;> rfl

/-- CLOSE closes the device or, where a command came to wait, leaves the device state (R211). -/
theorem clDisable_dev (s : State) : (clDisable s).dev = s.dev ∨ (clDisable s).dev = .closed := by
  unfold clDisable
  dsimp only
  split_ifs
  · simp
  · exact .inr rfl

theorem clDisable_irqMask (s : State) : (clDisable s).irqMask = s.irqMask := by
  unfold clDisable
  dsimp only
  split_ifs
  · simp
  · rfl

/-- A phase other than the last of CLOSE, TX_DATA and the write loop writes neither. -/
theorem phaseEffect_sameGates (v : Word) {s : State} (closing : s.phase ≠ .clDisable) (data : s.phase ≠ .txData)
    (poll : s.phase ≠ .txWrPoll) (byte : s.phase ≠ .txWrByte) : SameGates s (phaseEffect v s) := by
  unfold phaseEffect
  cases hph : s.phase with
  | clDisable => exact absurd hph closing
  | txData => exact absurd hph data
  | txWrPoll => exact absurd hph poll
  | txWrByte => exact absurd hph byte
  | sfRestore => exact sfRestore_sameGates s
  | txFetch => exact txFetch_sameGates s
  | txStartSt => exact checkedStatus_sameGates v .txAddr s
  | txAddrSt => exact checkedStatus_sameGates v .txAddrClr s
  | txRdByte => exact txRdByte_sameGates v s
  | txNext => exact txNext_sameGates s
  | _ => exact ⟨rfl, rfl⟩

theorem phaseEffect_dev (v : Word) {s : State} (closing : s.phase ≠ .clDisable) : (phaseEffect v s).dev = s.dev := by
  by_cases data : s.phase = .txData
  · simpa [phaseEffect, data] using txData_dev s
  by_cases poll : s.phase = .txWrPoll
  · simpa [phaseEffect, poll] using txWrPoll_dev v s
  by_cases byte : s.phase = .txWrByte
  · simpa [phaseEffect, byte] using txWrByte_dev s
  exact (phaseEffect_sameGates v closing data poll byte).dev

theorem phaseEffect_irqMask (v : Word) {s : State} (data : s.phase ≠ .txData) (poll : s.phase ≠ .txWrPoll)
    (byte : s.phase ≠ .txWrByte) : (phaseEffect v s).irqMask = s.irqMask := by
  by_cases closing : s.phase = .clDisable
  · simpa [phaseEffect, closing] using clDisable_irqMask s
  exact (phaseEffect_sameGates v closing data poll byte).irqMask

/-! ### The moves -/

/-- Only the dispatcher's and the sequencer's moves may write either. -/
theorem moveEffect_sameGates {m : Move} (dispatch : ∀ r, m ≠ .dispatch r) (sequencer : ∀ v, m ≠ .sequencer v)
    (s : State) : SameGates s (moveEffect m s) := by
  cases m with
  | submit r code a0 a1 regions => exact submit_sameGates r code a0 a1 regions s
  | collect r => exact collect_sameGates r s
  | callerWrite a b => exact ⟨rfl, rfl⟩
  | dispatch r => exact absurd rfl (dispatch r)
  | acquire r => exact acquire_sameGates r s
  | sequencer v => exact absurd rfl (sequencer v)
  | evtHandler => exact evtHandler_sameGates s
  | errHandler => exact errHandler_sameGates s

theorem dispatchEffect_irqMask (r : Nat) (s : State) : (dispatchEffect r s).irqMask = s.irqMask := by
  unfold dispatchEffect
  split
  next code a0 a1 _ =>
    by_cases opening : code = 1
    · subst opening
      exact openCase_irqMask _
    · exact (commandEffect_sameGates opening a0 a1 _).irqMask
  next => rfl

theorem dispatchEffect_dev (r : Nat) (s : State) :
    (dispatchEffect r s).dev = s.dev ∨
      s.dev = .closed ∧ (dispatchEffect r s).dev = .opened ∧ ∃ a0 a1, s.slot r = .submitted 1 a0 a1 := by
  unfold dispatchEffect
  split
  next code a0 a1 shown =>
    by_cases opening : code = 1
    · subst opening
      obtain same | ⟨closed, opened⟩ := openCase_dev ((s.withPort r).log (.dispatch r 1))
      · exact .inl same
      · exact .inr ⟨closed, opened, a0, a1, shown⟩
    · exact .inl (commandEffect_sameGates opening a0 a1 _).dev
  next => exact .inl rfl

end Sys2Proof.Machine

namespace Sys2Proof.Proofs

open Sys2Proof.Machine

/-- Settles O35, one case of submit or collect for each clause. -/
theorem requestersSubmitAndCollect : Obligations.RequestersSubmitAndCollect := by
  intro s r code a0 a1 regions
  refine ⟨fun hr idle => submit_of_idle hr idle code a0 a1 regions, fun h => submit_of_not_idle h code a0 a1 regions,
    fun st h => collect_of_done h, collect_of_not_done, fun h => ⟨submit_of_no_port h code a0 a1 regions, ?_⟩⟩
  exact collect_of_not_done fun st => by simp [State.slot_of_no_port h]

/-- Settles O50: of the moves that can write `dev`, OPEN's dispatch opens a closed device and CL_DISABLE closes it. -/
theorem deviceStateChangesOnlyByOpenAndClose : Obligations.DeviceStateChangesOnlyByOpenAndClose := by
  intro s t hs changed
  obtain ⟨-, rfl⟩ := step_eq_next.mp hs
  cases hm : s.turn.move with
  | dispatch r =>
    rw [hm] at changed
    obtain same | ⟨closed, opened, a0, a1, shown⟩ := dispatchEffect_dev r s.takeTurn
    · exact absurd same changed
    · exact .inl ⟨closed, opened, r, a0, a1, rfl, shown⟩
  | sequencer v =>
    rw [hm] at changed
    have closing : s.phase = .clDisable := by
      by_contra other
      exact changed (phaseEffect_dev v (s := s.takeTurn) other)
    have effect : moveEffect (.sequencer v) s.takeTurn = clDisable s.takeTurn := by
      simp [moveEffect, phaseEffect, closing]
    rw [effect] at changed ⊢
    obtain same | closed := clDisable_dev s.takeTurn
    · exact absurd same changed
    · have opened : s.dev = .opened := Dev.eq_opened fun before => changed (closed.trans before.symm)
      exact .inr ⟨opened, closed, closing, v, rfl⟩
  | _ => exact absurd (moveEffect_sameGates (by simp [hm]) (by simp [hm]) s.takeTurn).dev changed

/-- Settles O51: of the moves that can write `irq_mask`, only the sequencer's in TX_DATA and in the write loop do. -/
theorem maskChangesOnlyInTheWriteLoop : Obligations.MaskChangesOnlyInTheWriteLoop := by
  intro s t hs changed
  obtain ⟨-, rfl⟩ := step_eq_next.mp hs
  cases hm : s.turn.move with
  | dispatch r =>
    rw [hm] at changed
    exact absurd (dispatchEffect_irqMask r s.takeTurn) changed
  | sequencer v =>
    rw [hm] at changed
    refine ⟨⟨v, rfl⟩, ?_⟩
    by_contra outside
    obtain ⟨data, poll, byte⟩ : s.phase ≠ .txData ∧ s.phase ≠ .txWrPoll ∧ s.phase ≠ .txWrByte := by tauto
    exact changed (phaseEffect_irqMask v (s := s.takeTurn) data poll byte)
  | _ => exact absurd (moveEffect_sameGates (by simp [hm]) (by simp [hm]) s.takeTurn).irqMask changed

end Sys2Proof.Proofs
end

section
/-! SUPPORT. Settles what a word of caller memory is (20_memory.md R62, R63). -/

namespace Sys2Proof.Machine

theorem State.admits_iff {s : State} {a n : Nat} :
    s.admits a n = true ↔ ∃ g ∈ s.lent, g.owner = s.x.owner ∧ g.base ≤ a ∧ a + n ≤ g.base + g.size := by
  simp [State.admits, and_assoc]

theorem State.cmemWord_eq_some {s : State} {a w : Word} :
    s.cmemWord a = some w ↔
      s.admits a.toNat 4 = true ∧
        s.cmem.read (a.toNat + 3) ++ s.cmem.read (a.toNat + 2) ++ s.cmem.read (a.toNat + 1) ++ s.cmem.read a.toNat = w := by
  unfold State.cmemWord
  split <;> simp_all

/-- Bits side by side are a sum: the left part stands above the `n` bits of the right. -/
theorem toNat_append_eq_add {m n : Nat} (x : BitVec m) (y : BitVec n) :
    (x ++ y).toNat = 2 ^ n * x.toNat + y.toNat := by
  rw [BitVec.toNat_append, ← Nat.shiftLeft_add_eq_or_of_lt y.isLt, Nat.shiftLeft_eq, Nat.mul_comm]

end Sys2Proof.Machine

namespace Sys2Proof.Proofs

open Sys2Proof.Machine

/-- Settles O30: four bytes side by side, the lowest address in the lowest bits, are the sum of the bytes at their places. -/
theorem callerWordsAreLittleEndian : Obligations.CallerWordsAreLittleEndian := by
  intro s a w
  rw [State.cmemWord_eq_some, State.admits_iff, ← BitVec.toNat_inj]
  refine and_congr_right fun _ => ?_
  simp only [toNat_append_eq_add]
  omega

end Sys2Proof.Proofs
end

section
/-! SUPPORT. The register accesses of a step are the one its phase issues (00_scope.md R16, 30_encoding.md R114); settles that a
transfer writes only CR1 and DR (20_memory.md R83). -/

namespace Sys2Proof.Machine

variable {s t : State}

/-! ### The accesses of a history -/

/-- The event is an access of a register of the controller (R30, R60). -/
@[simp] def Event.isAccess : Event → Bool
  | .regRead _ _ | .regWrite _ _ => true
  | .cMemRead _ _ _ | .cMemWrite _ _ _ | .dispatch _ _ | .lockAcq _ | .lockRel _ | .maskSet | .maskRestore _
  | .post _ | .lineDisable _ | .complete _ _ | .fault _ => false

/-- The register accesses in the history, oldest first. -/
def State.accesses (s : State) : List Event := s.history.filter Event.isAccess

/-- The event of an access by the tuple (R30, R114). -/
def busEvent (op : RegOp) : Event := if op.w then .regWrite op.off op.val else .regRead op.off op.val

@[simp] theorem busEvent_isAccess (op : RegOp) : (busEvent op).isAccess = true := by
  unfold busEvent
  split <;> rfl

theorem busEvent_eq_regWrite {op : RegOp} {off : BitVec 8} {v : Word} :
    busEvent op = .regWrite off v ↔ op.w = true ∧ op.off = off ∧ op.val = v := by
  unfold busEvent
  split <;> simp_all

/-- The access that the phase issues, if it issues one; `v` answers a read (R70, R114). -/
def State.issued (s : State) (v : Word) : List Event := ((s.regOp v).map busEvent).toList

theorem State.mem_issued {v : Word} {e : Event} : e ∈ s.issued v ↔ ∃ op, s.regOp v = some op ∧ busEvent op = e := by
  simp [State.issued]

theorem State.issued_of_row {row : MicroRow} (h : phaseRow s.phase = some row) (v : Word) :
    s.issued v = [busEvent (rowOp row (s.busValue row v))] := by
  simp [State.issued, State.regOp, h]

/-! ### The updates of the state -/

@[simp] theorem State.accesses_log (s : State) (e : Event) :
    (s.log e).accesses = s.accesses ++ if e.isAccess then [e] else [] := by
  simp [State.accesses, List.filter_cons]

@[simp] theorem State.accesses_goto (s : State) (ph : Phase) : (s.goto ph).accesses = s.accesses := rfl
@[simp] theorem State.accesses_setX (s : State) (x : Regs) : (s.setX x).accesses = s.accesses := rfl
@[simp] theorem State.accesses_setSlot (s : State) (r : Nat) (v : Slot) : (s.setSlot r v).accesses = s.accesses := rfl
@[simp] theorem State.accesses_setLock (s : State) (l : Lock) : (s.setLock l).accesses = s.accesses := rfl
@[simp] theorem State.accesses_setDev (s : State) (d : Dev) : (s.setDev d).accesses = s.accesses := rfl
@[simp] theorem State.accesses_setIrqMask (s : State) (b : Bool) : (s.setIrqMask b).accesses = s.accesses := rfl
@[simp] theorem State.accesses_withPort (s : State) (r : Nat) : (s.withPort r).accesses = s.accesses := rfl
@[simp] theorem State.accesses_unlend (s : State) (r : Nat) : (s.unlend r).accesses = s.accesses := rfl
@[simp] theorem State.accesses_lend (s : State) (r : Nat) (regions : List (Nat × Nat)) :
    (s.lend r regions).accesses = s.accesses := rfl
@[simp] theorem State.accesses_post (s : State) : s.post.accesses = s.accesses := rfl
@[simp] theorem State.accesses_takeTurn (s : State) : s.takeTurn.accesses = s.accesses := rfl
@[simp] theorem State.accesses_raiseBusError (s : State) (v : Word) : (s.raiseBusError v).accesses = s.accesses := rfl

@[simp] theorem State.accesses_cmemStore (s : State) (a : Word) (b : Byte) : (s.cmemStore a b).accesses = s.accesses := by
  simp [State.accesses, State.cmemStore]

@[simp] theorem State.accesses_raiseFault (s : State) (f : Fault) : (s.raiseFault f).accesses = s.accesses := by
  cases hf : s.fault with
  | none => simp [State.accesses, State.raiseFault_of_none hf]
  | some g => rw [State.raiseFault_of_some hf]

@[simp] theorem State.accesses_complete (s : State) (r : Nat) (st : Status) :
    (s.complete r st).accesses = s.accesses := by
  simp [State.complete_eq]

@[simp] theorem State.accesses_takeLock (s : State) (r : Nat) : (s.takeLock r).accesses = s.accesses := by
  simp [State.takeLock_eq]

@[simp] theorem State.accesses_finish (s : State) (st : Status) : (s.finish st).accesses = s.accesses := by
  simp [State.finish_eq]

@[simp] theorem State.accesses_maskInterrupts (s : State) : s.maskInterrupts.accesses = s.accesses := by
  simp [State.maskInterrupts_eq]

@[simp] theorem State.accesses_restoreInterrupts (s : State) : s.restoreInterrupts.accesses = s.accesses := by
  simp [State.restoreInterrupts_eq]

@[simp] theorem State.accesses_raiseTimeout (s : State) : s.raiseTimeout.accesses = s.accesses := by
  simp [State.raiseTimeout_eq]

/-! ### The agents that make no access -/

theorem openCase_accesses (s : State) : (openCase s).accesses = s.accesses := by
  unfold openCase
  split_ifs
  · simp
  · simp
  · simp
  · exact State.accesses_takeLock { s with dev := .opened, sig := 0 } s.port

theorem closeCase_accesses (s : State) : (closeCase s).accesses = s.accesses := by
  unfold closeCase
  split_ifs <;> simp

theorem transferCase_accesses (messages count : Word) (s : State) :
    (transferCase messages count s).accesses = s.accesses := by
  unfold transferCase
  split_ifs <;> simp

theorem setFrequencyCase_accesses (hz a1 : Word) (s : State) : (setFrequencyCase hz a1 s).accesses = s.accesses := by
  unfold setFrequencyCase
  split_ifs <;> simp

theorem commandEffect_accesses (code a0 a1 : Word) (s : State) : (commandEffect code a0 a1 s).accesses = s.accesses := by
  unfold commandEffect
  split_ifs
  · exact openCase_accesses s
  · exact closeCase_accesses s
  · exact transferCase_accesses a0 a1 s
  · exact setFrequencyCase_accesses a0 a1 s
  · simp

theorem dispatchEffect_accesses (r : Nat) (s : State) : (dispatchEffect r s).accesses = s.accesses := by
  unfold dispatchEffect
  split
  · simp [commandEffect_accesses]
  · rfl

theorem acquire_accesses (r : Nat) (s : State) : (acquire r s).accesses = s.accesses := by
  unfold acquire startWaiting transferStart setFrequencyStart
  split
  · split_ifs <;> simp
  · rfl

theorem submit_accesses (r : Nat) (code a0 a1 : Word) (regions : List (Nat × Nat)) (s : State) :
    (submit r code a0 a1 regions s).accesses = s.accesses := by
  unfold submit
  split_ifs <;> simp

theorem collect_accesses (r : Nat) (s : State) : (collect r s).accesses = s.accesses := by
  unfold collect
  split <;> simp

theorem evtHandler_accesses (s : State) : (evtHandler s).accesses = s.accesses := by
  have disabled : State.accesses { s with evtEn := false } = s.accesses := rfl
  unfold evtHandler
  split_ifs <;> simp [disabled]

theorem errHandler_accesses (s : State) : (errHandler s).accesses = s.accesses := by
  unfold errHandler
  split_ifs <;> simp

/-- Only the sequencer accesses the registers (R16). -/
theorem moveEffect_accesses {m : Move} (sequencer : ∀ v, m ≠ .sequencer v) (s : State) :
    (moveEffect m s).accesses = s.accesses := by
  cases m with
  | submit r code a0 a1 regions => exact submit_accesses r code a0 a1 regions s
  | collect r => exact collect_accesses r s
  | callerWrite a b => rfl
  | dispatch r => exact dispatchEffect_accesses r s
  | acquire r => exact acquire_accesses r s
  | sequencer v => exact absurd rfl (sequencer v)
  | evtHandler => exact evtHandler_accesses s
  | errHandler => exact errHandler_accesses s

/-! ### The phases -/

theorem sfRestore_accesses (s : State) : (sfRestore s).accesses = s.accesses ++ [.regWrite 0x00 s.x.old] := by
  unfold sfRestore
  split <;> simp [regOffset]

theorem clDisable_accesses (s : State) :
    (clDisable s).accesses = s.accesses ++ [.regWrite 0x00 (disableWord s.cfg s.x.tmp)] := by
  unfold clDisable
  dsimp only
  split_ifs <;> simp [regOffset]

theorem txFetch_accesses (s : State) : (txFetch s).accesses = s.accesses := by
  unfold txFetch
  dsimp only
  split_ifs
  · simp
  split
  · simp
  split
  · simp
  split <;> simp

theorem checkedStatus_accesses (v : Word) (good : Phase) (s : State) :
    (checkedStatus v good s).accesses = s.accesses ++ [.regRead 0x14 v] := by
  unfold checkedStatus
  dsimp only
  split_ifs <;> simp [regOffset]

theorem txData_accesses (s : State) : (txData s).accesses = s.accesses := by
  unfold txData
  dsimp only
  split_ifs <;> simp

theorem txRdByte_accesses (v : Word) (s : State) : (txRdByte v s).accesses = s.accesses ++ [.regRead 0x10 v] := by
  unfold txRdByte
  dsimp only
  split_ifs <;> simp [regOffset]

theorem txWrPoll_accesses (v : Word) (s : State) : (txWrPoll v s).accesses = s.accesses ++ [.regRead 0x14 v] := by
  unfold txWrPoll
  dsimp only
  split_ifs <;> simp [regOffset]

/-- A refused payload read faults before the access (R174). -/
theorem txWrByte_accesses (s : State) :
    (txWrByte s).accesses = s.accesses ∨ (txWrByte s).accesses = s.accesses ++ [.regWrite 0x10 (dataWord s.payload)] := by
  unfold txWrByte
  split
  next => exact .inl (State.accesses_raiseFault s _)
  next b hb =>
    have payload : s.payload = b := by simp [State.payload, hb]
    right
    dsimp only
    split_ifs <;> simp [regOffset, payload]

theorem txNext_accesses (s : State) : (txNext s).accesses = s.accesses := by
  unfold txNext
  split_ifs <;> simp

/-- A phase makes the access it issues, or none: TX_WR_BYTE after a refused payload read. The phases not named here make the
access of their row in every case. -/
theorem phaseEffect_accesses (v : Word) (s : State) :
    (phaseEffect v s).accesses = s.accesses ∨ (phaseEffect v s).accesses = s.accesses ++ s.issued v := by
  unfold phaseEffect
  cases hph : s.phase with
  | idle => exact .inl rfl
  | txFetch => exact .inl (txFetch_accesses s)
  | txData => exact .inl (txData_accesses s)
  | txNext => exact .inl (txNext_accesses s)
  | txDone => exact .inl (State.accesses_finish s _)
  | txWrByte =>
    have payload : s.issued v = [.regWrite 0x10 (dataWord s.payload)] :=
      State.issued_of_row (row := .wdata) (by rw [hph]; rfl) v
    rw [payload]
    exact txWrByte_accesses s
  | _ =>
    right
    simp [State.issued, State.regOp, hph, phaseRow, rowOp, rowAccess, State.busValue, busEvent, regOffset,
      sfRestore_accesses, clDisable_accesses, txStartSt, txAddrSt, checkedStatus_accesses, txRdByte_accesses,
      txWrPoll_accesses, sfRdCr1, sfDisable, sfWrCcr, sfWrTrise, sfrRdCr1, sfrDisable, sfrRestore, opWrCr2, opRdCr1,
      opEnable, clRdCr1, txStart, txAddr, txAddrClr, txStop]

/-- A step accesses a register only as the sequencer's move, and then by the access that its phase issues. -/
theorem step_accesses (h : step s = .next t) :
    t.accesses = s.accesses ∨ ∃ v, s.turn.move = .sequencer v ∧ t.accesses = s.accesses ++ s.issued v := by
  obtain ⟨-, rfl⟩ := step_eq_next.mp h
  cases hm : s.turn.move with
  | sequencer v => exact (phaseEffect_accesses v s.takeTurn).imp id fun issued => ⟨v, rfl, issued⟩
  | _ => exact .inl (moveEffect_accesses (by simp) s.takeTurn)

/-- Every access among the new events of a step is the one that the sequencer's phase issues. -/
theorem step_access_issued (h : step s = .next t) {es : List Event} (grown : t.history = s.history ++ es) {e : Event}
    (he : e ∈ es) (access : e.isAccess = true) : ∃ v, s.turn.move = .sequencer v ∧ e ∈ s.issued v := by
  have new : t.accesses = s.accesses ++ es.filter Event.isAccess := by simp [State.accesses, grown]
  have mem : e ∈ es.filter Event.isAccess := List.mem_filter.mpr ⟨he, access⟩
  obtain none | ⟨v, hv, one⟩ := step_accesses h
  · have empty : es.filter Event.isAccess = [] := by simpa [new] using none
    simp [empty] at mem
  · have issued : es.filter Event.isAccess = s.issued v := List.append_cancel_left (new.symm.trans one)
    exact ⟨v, hv, issued ▸ mem⟩

/-! ### The rows of a transfer -/

/-- A phase of a transfer that writes a register writes CR1 or DR (R114, R160). -/
theorem write_offset_of_inTransfer {ph : Phase} (transfer : Safety.inTransfer ph = true) :
    ∀ row, phaseRow ph = some row → (rowAccess row).1 = true →
      regOffset (rowAccess row).2 = 0x00 ∨ regOffset (rowAccess row).2 = 0x10 := by
  cases ph with
  | idle | sfRdCr1 | sfDisable | sfWrCcr | sfWrTrise | sfRestore | sfrRdCr1 | sfrDisable | sfrRestore | opWrCr2
  | opRdCr1 | opEnable | clRdCr1 | clDisable => exact absurd transfer (by decide)
  | _ => simp [phaseRow, rowAccess, regOffset]

end Sys2Proof.Machine

namespace Sys2Proof.Proofs

open Sys2Proof.Machine

/-- Settles O49: a register write is the one its phase issues, and a transfer's phases issue writes of CR1 and DR only. -/
theorem transferWritesOnlyCr1AndDr : Obligations.TransferWritesOnlyCr1AndDr := by
  intro s t transfer hs
  obtain ⟨es, grown⟩ := (step_continues hs).history
  refine ⟨es, grown.symm, fun off v written => ?_⟩
  obtain ⟨answer, -, issued⟩ := step_access_issued hs grown.symm written rfl
  obtain ⟨op, hop, event⟩ := State.mem_issued.mp issued
  obtain ⟨row, hrow, rfl⟩ := State.regOp_eq_some.mp hop
  obtain ⟨write, rfl, -⟩ := busEvent_eq_regWrite.mp event
  exact write_offset_of_inTransfer transfer row hrow write

end Sys2Proof.Proofs
end

section
/-! SUPPORT. The adapter lock: settles what acquire does, and who leaves and who takes the lock (20_memory.md R76, R77). -/

namespace Sys2Proof.Machine

/-! ### The acquisition -/

theorem overCeiling_iff {p : Params} {hz : Word} : overCeiling p hz = true ↔ hz.toNat > p.fastMaxHz.toNat := by
  simp [overCeiling, BitVec.ult]

theorem acquire_of_enabled {s : State} {r : Nat} {code a0 a1 : Word} (waiting : s.slot r = .waitLock code a0 a1)
    (free : s.lock = .free) (opened : s.dev = .opened) : acquire r s = startWaiting r code a0 a1 s := by
  simp [acquire, waiting, free, opened]

theorem acquire_of_not_enabled {s : State} (h : s.lock ≠ .free ∨ s.dev = .closed) (r : Nat) : acquire r s = s := by
  have disabled : ¬(s.lock = .free ∧ s.dev = .opened) := by
    rintro ⟨free, opened⟩
    simp [free, opened] at h
  unfold acquire
  split
  · exact if_neg disabled
  · rfl

/-! ### What a step does to the lock and the ports -/

/-- The ways a step treats the lock and the ports. -/
inductive LockStep (s t : State) : Prop where
  /-- Both stand. -/
  | same (lock : t.lock = s.lock) (req : t.req = s.req)
  /-- The slot of a port that does not await the lock is written. -/
  | place (r : Nat) (v : Slot) (lock : t.lock = s.lock) (awake : (s.slot r).isWaiting = false)
      (req : t.req = s.req.set r v)
  /-- The free lock is taken for a command (R76, R204, R209). -/
  | take (r : Nat) (free : s.lock = .free) (shown : s.slot r ≠ .idle) (lock : t.lock = .held r)
      (req : t.req = s.req.set r .running)
  /-- The last phase of a command leaves the lock (R77). -/
  | leave (st : Status) (busy : s.phase ≠ .idle) (lock : t.lock = .free) (idle : t.phase = .idle)
      (req : t.req = s.req.set s.x.owner (.done st))

variable {s t : State}

namespace LockStep

theorem raiseFault (s : State) (f : Fault) : LockStep s (s.raiseFault f) := .same (by simp) (by simp)

/-- Taking the port and logging are no part of what a step does to the lock. -/
theorem of_dispatch {r : Nat} {e : Event} : LockStep ((s.withPort r).log e) t → LockStep s t
  | same lock req => same lock req
  | place q v lock awake req => place q v lock awake req
  | take q free shown lock req => take q free shown lock req
  | leave st busy lock idle req => leave st busy lock idle req

end LockStep

/-! ### The commands and the other agents -/

section Commands

variable {code a0 a1 : Word} (shown : s.slot s.port = .submitted code a0 a1)
include shown

theorem complete_lockStep (st : Status) : LockStep s (s.complete s.port st) :=
  .place s.port (.done st) rfl (by simp [shown, Slot.isWaiting]) rfl

theorem setSlot_lockStep (v : Slot) : LockStep s (s.setSlot s.port v) :=
  .place s.port v rfl (by simp [shown, Slot.isWaiting]) rfl

/-- OPEN takes the lock of a closed device, where it is free (R25, R204). -/
theorem openCase_lockStep (h : s.dev = .closed → s.lock = .free) : LockStep s (openCase s) := by
  unfold openCase
  split_ifs with detached opened noAlloc
  · exact complete_lockStep shown _
  · exact complete_lockStep shown _
  · exact complete_lockStep shown _
  · exact .take s.port (h (Dev.eq_closed opened)) (by simp [shown]) rfl rfl

theorem closeCase_lockStep : LockStep s (closeCase s) := by
  unfold closeCase
  split_ifs with closed busy
  · exact complete_lockStep shown _
  · exact .raiseFault s _
  · have free : s.lock = .free := by simpa using (not_or.mp busy).1
    exact .take s.port free (by simp [shown]) rfl rfl

theorem transferCase_lockStep (messages count : Word) : LockStep s (transferCase messages count s) := by
  unfold transferCase
  split_ifs
  · exact complete_lockStep shown _
  · exact complete_lockStep shown _
  · exact setSlot_lockStep shown _

theorem setFrequencyCase_lockStep (hz arg : Word) : LockStep s (setFrequencyCase hz arg s) := by
  unfold setFrequencyCase
  split_ifs
  · exact complete_lockStep shown _
  · exact setSlot_lockStep shown _
  · exact complete_lockStep shown _
  · exact .raiseFault s _
  · exact setSlot_lockStep shown _

theorem commandEffect_lockStep (h : s.dev = .closed → s.lock = .free) : LockStep s (commandEffect code a0 a1 s) := by
  unfold commandEffect
  split_ifs
  · exact openCase_lockStep shown h
  · exact closeCase_lockStep shown
  · exact transferCase_lockStep shown a0 a1
  · exact setFrequencyCase_lockStep shown a0 a1
  · exact complete_lockStep shown _

end Commands

theorem dispatchEffect_lockStep (h : s.dev = .closed → s.lock = .free) (r : Nat) : LockStep s (dispatchEffect r s) := by
  unfold dispatchEffect
  split
  next shown => exact .of_dispatch (commandEffect_lockStep shown h)
  next => exact .same rfl rfl

theorem startWaiting_lockStep {r : Nat} (free : s.lock = .free) (shown : s.slot r ≠ .idle) (code a0 a1 : Word) :
    LockStep s (startWaiting r code a0 a1 s) := by
  unfold startWaiting
  split_ifs
  · exact .take r free shown rfl rfl
  · exact .take r free shown rfl rfl
  · exact .same rfl rfl

theorem acquire_lockStep (r : Nat) (s : State) : LockStep s (acquire r s) := by
  unfold acquire
  split
  next waiting =>
    split_ifs with enabled
    · exact startWaiting_lockStep enabled.1 (by simp [waiting]) _ _ _
    · exact .same rfl rfl
  next => exact .same rfl rfl

theorem submit_lockStep (r : Nat) (code a0 a1 : Word) (regions : List (Nat × Nat)) (s : State) :
    LockStep s (submit r code a0 a1 regions s) := by
  unfold submit
  split_ifs with enabled
  · exact .place r _ rfl (by simp [enabled.2, Slot.isWaiting]) rfl
  · exact .same rfl rfl

theorem collect_lockStep (r : Nat) (s : State) : LockStep s (collect r s) := by
  unfold collect
  split
  next done => exact .place r _ rfl (by simp [done, Slot.isWaiting]) rfl
  next => exact .same rfl rfl

theorem evtHandler_lockStep (s : State) : LockStep s (evtHandler s) := by
  unfold evtHandler
  split_ifs
  · exact .raiseFault s _
  · exact .same rfl rfl
  · exact .same rfl rfl

theorem errHandler_lockStep (s : State) : LockStep s (errHandler s) := by
  unfold errHandler
  split_ifs
  · exact .raiseFault s _
  · exact .same rfl rfl
  · exact .same rfl rfl

/-! ### The phases -/

theorem sfRestore_lockStep (busy : s.phase ≠ .idle) : LockStep s (sfRestore s) := by
  unfold sfRestore
  split
  · exact .leave _ busy rfl rfl rfl
  · exact .same rfl rfl

theorem clDisable_lockStep (busy : s.phase ≠ .idle) : LockStep s (clDisable s) := by
  unfold clDisable
  dsimp only
  split_ifs
  · exact .same (by simp) (by simp)
  · exact .leave _ busy rfl rfl rfl

theorem txFetch_lockStep (s : State) : LockStep s (txFetch s) := by
  unfold txFetch
  dsimp only
  split_ifs
  · exact .raiseFault s _
  split
  · exact .raiseFault s _
  split
  · exact .same (by simp) (by simp)
  split
  · exact .same (by simp) (by simp)
  · exact .same rfl rfl

theorem checkedStatus_lockStep (v : Word) (good : Phase) (s : State) : LockStep s (checkedStatus v good s) := by
  unfold checkedStatus
  dsimp only
  split_ifs <;> exact .same rfl rfl

theorem txData_lockStep (s : State) : LockStep s (txData s) := by
  unfold txData
  dsimp only
  split_ifs <;> exact .same rfl rfl

theorem txRdByte_lockStep (v : Word) (s : State) : LockStep s (txRdByte v s) := by
  unfold txRdByte
  dsimp only
  split_ifs
  · exact .same rfl rfl
  · exact .same rfl rfl
  · exact .same (by simp) (by simp)

theorem txWrPoll_lockStep (v : Word) (s : State) : LockStep s (txWrPoll v s) := by
  unfold txWrPoll
  dsimp only
  split_ifs <;> exact .same rfl rfl

theorem txWrByte_lockStep (s : State) : LockStep s (txWrByte s) := by
  unfold txWrByte
  split
  · exact .raiseFault s _
  · dsimp only
    split_ifs <;> exact .same rfl rfl

theorem txNext_lockStep (s : State) : LockStep s (txNext s) := by
  unfold txNext
  split_ifs <;> exact .same rfl rfl

/-- A phase that is not named here is neither the last of its command nor split into cases. -/
theorem phaseEffect_lockStep (v : Word) (s : State) : LockStep s (phaseEffect v s) := by
  unfold phaseEffect
  cases hph : s.phase with
  | sfrRestore | opEnable | txDone => exact .leave _ (by simp [hph]) rfl rfl rfl
  | sfRestore => exact sfRestore_lockStep (by simp [hph])
  | clDisable => exact clDisable_lockStep (by simp [hph])
  | txFetch => exact txFetch_lockStep s
  | txStartSt => exact checkedStatus_lockStep v .txAddr s
  | txAddrSt => exact checkedStatus_lockStep v .txAddrClr s
  | txData => exact txData_lockStep s
  | txRdByte => exact txRdByte_lockStep v s
  | txWrPoll => exact txWrPoll_lockStep v s
  | txWrByte => exact txWrByte_lockStep s
  | txNext => exact txNext_lockStep s
  | _ => exact .same rfl rfl

theorem moveEffect_lockStep (h : s.dev = .closed → s.lock = .free) (m : Move) : LockStep s (moveEffect m s) := by
  cases m with
  | submit r code a0 a1 regions => exact submit_lockStep r code a0 a1 regions s
  | collect r => exact collect_lockStep r s
  | callerWrite a b => exact .same rfl rfl
  | dispatch r => exact dispatchEffect_lockStep h r
  | acquire r => exact acquire_lockStep r s
  | sequencer v => exact phaseEffect_lockStep v s
  | evtHandler => exact evtHandler_lockStep s
  | errHandler => exact errHandler_lockStep s

end Sys2Proof.Machine

namespace Sys2Proof.Safety

open Sys2Proof.Machine

variable {s t : State}

theorem slot_of_req_set {r : Nat} {v : Slot} (req : t.req = s.req.set r v) (q : Nat) :
    t.slot q = if r = q ∧ r < s.req.length then v else s.slot q := by
  rw [← slot_setSlot]
  simp [State.slot, req]

theorem lock_left_by_holder (h : LockInv s) (step : LockStep s t) {r : Nat} (held : s.lock = .held r) :
    t.lock = .held r ∨ t.lock = .free ∧ t.phase = .idle ∧ ∃ st, t.slot r = .done st := by
  cases step with
  | same lock req => exact .inl (lock.trans held)
  | place q v lock awake req => exact .inl (lock.trans held)
  | take q free shown lock req => exact absurd (free.symm.trans held) Lock.noConfusion
  | leave st busy lock idle req =>
    obtain ⟨owner, running, -⟩ := h.holder r held
    have port : r < s.req.length := State.lt_of_slot (by simp [running])
    exact .inr ⟨lock, idle, st, by simp [slot_of_req_set req, owner, port]⟩

theorem waiting_until_taken (h : LockInv s) (step : LockStep s t) {q : Nat} {code a0 a1 : Word}
    (waiting : s.slot q = .waitLock code a0 a1) :
    t.slot q = .waitLock code a0 a1 ∨ s.lock = .free ∧ t.lock = .held q ∧ t.slot q = .running := by
  cases step with
  | same lock req => exact .inl (by simpa [State.slot, req] using waiting)
  | place r v lock awake req =>
    have other : r ≠ q := by
      rintro rfl
      simp [waiting, Slot.isWaiting] at awake
    exact .inl (by simp [slot_of_req_set req, other, waiting])
  | take r free shown lock req =>
    by_cases own : r = q
    · subst own
      exact .inr ⟨free, lock, by simp [slot_of_req_set req, State.lt_of_slot shown]⟩
    · exact .inl (by simp [slot_of_req_set req, own, waiting])
  | leave st busy lock idle req =>
    have running := (h.owner (mt h.idleIffFree.mpr busy)).2.1
    have other : s.x.owner ≠ q := by
      intro own
      simp [own, waiting] at running
    exact .inl (by simp [slot_of_req_set req, other, waiting])

end Sys2Proof.Safety

namespace Sys2Proof.Proofs

open Sys2Proof.Machine Sys2Proof.Safety

/-- Settles O33: where acquire is enabled it starts the waiting command, where not it is no step. -/
theorem acquireStartsTheWaitingCommand : Obligations.AcquireStartsTheWaitingCommand := by
  intro s r a0 a1
  refine ⟨fun waiting free opened => ?_, fun waiting free opened => ?_, fun h => acquire_of_not_enabled h r⟩
  · rw [acquire_of_enabled waiting free opened]
    rfl
  · rw [acquire_of_enabled waiting free opened]
    simp only [← overCeiling_iff]
    rfl

/-- Settles O52: a step keeps the lock, takes it free for a waiting or dispatched command, or ends the holder's command. -/
theorem lockIsLeftOnlyByItsHolder : Obligations.LockIsLeftOnlyByItsHolder := by
  intro s t h hs
  obtain ⟨-, rfl⟩ := step_eq_next.mp hs
  have inv : LockInv s.takeTurn := h.takeTurn.lock
  have step := moveEffect_lockStep inv.free_of_closed s.turn.move
  exact ⟨fun r held => lock_left_by_holder inv step held, fun q code a0 a1 => waiting_until_taken inv step⟩

end Sys2Proof.Proofs
end

section
/-! SUPPORT. The bytes of an instruction and of a descriptor are read back as they were written (20_memory.md R63,
30_encoding.md R100, R107); settles the round trip of the decoder and that a descriptor's reserved bits are ignored. -/

namespace Sys2Proof

/-! ### Little-endian bytes -/

@[simp] theorem leBytes_length (n v : Nat) : (leBytes n v).length = n := by
  induction n generalizing v with
  | zero => rfl
  | succ n ih => simp [leBytes, ih]

theorem leNat_leBytes (n v : Nat) : leNat (leBytes n v) = v % 256 ^ n := by
  induction n generalizing v with
  | zero => simp [leBytes, leNat, Nat.mod_one]
  | succ n ih =>
    calc leNat (leBytes (n + 1) v) = v % 256 + 256 * (v / 256 % 256 ^ n) := by simp [leBytes, leNat, ih]
      _ = v % 256 ^ (n + 1) := by rw [pow_succ', Nat.mod_mul]

@[simp] theorem leNat_leBytes_word (w : Word) : leNat (leBytes 4 w.toNat) = w.toNat := by
  rw [leNat_leBytes]
  exact Nat.mod_eq_of_lt w.isLt

/-! ### Three words: a command, a descriptor -/

section ThreeWords

variable (w0 w1 w2 : Word)

@[simp] theorem Raw.cmd_toBytes_length : (Raw.cmd w0 w1 w2).toBytes.length = 12 := by simp [Raw.toBytes]

@[simp] theorem Raw.cmd_toBytes_word0 : leNat ((Raw.cmd w0 w1 w2).toBytes.take 4) = w0.toNat := by simp [Raw.toBytes]

@[simp] theorem Raw.cmd_toBytes_word1 : leNat (((Raw.cmd w0 w1 w2).toBytes.drop 4).take 4) = w1.toNat := by
  simp [Raw.toBytes]

@[simp] theorem Raw.cmd_toBytes_word2 : leNat ((Raw.cmd w0 w1 w2).toBytes.drop 8) = w2.toNat := by
  rw [Raw.toBytes, List.drop_left' (by simp), leNat_leBytes_word]

end ThreeWords

/-! ### The tuple -/

namespace RegOp

variable (op : RegOp)

theorem toNat_lt : op.toNat < 2 ^ 41 := by
  have off := op.off.isLt
  have val := op.val.isLt
  unfold RegOp.toNat
  split <;> omega

theorem le_toNat_iff : 2 ^ 40 ≤ op.toNat ↔ op.w = true := by
  have off := op.off.isLt
  have val := op.val.isLt
  unfold RegOp.toNat
  split
  next write => exact iff_of_true (by omega) write
  next read => exact iff_of_false (by omega) read

theorem ofNat_toNat_div : BitVec.ofNat 8 (op.toNat / 2 ^ 32) = op.off := by
  have off := op.off.isLt
  have val := op.val.isLt
  apply BitVec.eq_of_toNat_eq
  rw [BitVec.toNat_ofNat, RegOp.toNat]
  split <;> omega

theorem ofNat_toNat : BitVec.ofNat 32 op.toNat = op.val := by
  have val := op.val.isLt
  apply BitVec.eq_of_toNat_eq
  rw [BitVec.toNat_ofNat, RegOp.toNat]
  split <;> omega

@[simp] theorem leNat_toBytes : leNat (Raw.regop op).toBytes = op.toNat := by
  rw [Raw.toBytes, leNat_leBytes]
  exact Nat.mod_eq_of_lt (op.toNat_lt.trans (by decide))

end RegOp

/-! ### The bytes of an instruction's words -/

theorem rawOfBytes_toBytes (raw : Raw) : rawOfBytes raw.toBytes = .ok raw := by
  cases raw with
  | cmd code a0 a1 => simp [rawOfBytes]
  | regop op =>
    have length : (Raw.regop op).toBytes.length = 6 := leBytes_length 6 op.toNat
    rw [rawOfBytes, if_neg (by simp [length]), if_pos length, op.leNat_toBytes, if_pos op.toNat_lt, op.ofNat_toNat_div,
      op.ofNat_toNat]
    simp only [op.le_toNat_iff, Bool.decide_eq_true]

/-- Decoding the bytes of words decodes the words. -/
theorem decode_toBytes (p : Params) (ctx : Option Phase) (raw : Raw) : decode p ctx raw.toBytes = decodeRaw p ctx raw := by
  rw [decode, rawOfBytes_toBytes]

/-- Every instruction's words decode to it in the context of a phase that issues its row (R103, R114). -/
theorem Laws.RoundTrip.all (i : Instr) : Laws.RoundTrip.Statement i := by
  cases i with
  | cmdOpen a0 a1 => exact cmdOpen a0 a1
  | cmdClose a0 a1 => exact cmdClose a0 a1
  | cmdExecuteTransfer messages count => exact cmdExecuteTransfer messages count
  | cmdSetFrequency hz a1 => exact cmdSetFrequency hz a1
  | cmdUnrecognised code a0 a1 => exact cmdUnrecognised code a0 a1
  | uopStart => exact uopStart
  | uopStop => exact uopStop
  | uopCr1Disable v => exact uopCr1Disable v
  | uopCr1Restore v => exact uopCr1Restore v
  | uopCr1Enable v => exact uopCr1Enable v
  | uopCr1Read v => exact uopCr1Read v
  | uopCr2Init v => exact uopCr2Init v
  | uopAddr addr rd => exact uopAddr addr rd
  | uopWdata b => exact uopWdata b
  | uopRdata v => exact uopRdata v
  | uopStatus v => exact uopStatus v
  | uopClraddr v => exact uopClraddr v
  | uopCcrSet v => exact uopCcrSet v
  | uopTriseSet v => exact uopTriseSet v

/-! ### The descriptor -/

namespace Descriptor

variable (d : Descriptor)

theorem word0_addr : d.word0.extractLsb' 0 7 = d.addr := by
  ext i hi
  have below : i < 16 := by omega
  have inWord : i < 32 := by omega
  simp [Descriptor.word0, below, inWord, BitVec.getLsbD_eq_getElem hi]

theorem word0_rd : d.word0.extractLsb' 16 1 = d.rd := by
  ext i hi
  have above : 7 ≤ 16 + i := by omega
  have inWord : 16 + i < 32 := by omega
  simp [Descriptor.word0, inWord, BitVec.getLsbD_of_ge _ _ above, BitVec.getLsbD_eq_getElem hi]

theorem word0_toNat : d.word0.toNat = d.addr.toNat + 65536 * d.rd.toNat := by
  have addr := d.addr.isLt
  have rd := d.rd.isLt
  have addrWord : (d.addr.zeroExtend 32).toNat = d.addr.toNat := by simp; omega
  have rdWord : (d.rd.zeroExtend 32 <<< 16).toNat = d.rd.toNat <<< 16 := by simp [Nat.shiftLeft_eq]; omega
  rw [Descriptor.word0, BitVec.or_comm, BitVec.toNat_or, addrWord, rdWord,
    ← Nat.shiftLeft_add_eq_or_of_lt (by omega), Nat.shiftLeft_eq]
  omega

theorem toBytes_eq : d.toBytes = (Raw.cmd d.word0 d.len d.buf).toBytes := rfl

end Descriptor

/-- A field that a mask covers is 0 in a word that has no bit of the mask. -/
theorem extractLsb'_eq_zero_of_and {mask w : Word} (h : w &&& mask = 0) {start len : Nat}
    (covers : mask.extractLsb' start len = BitVec.allOnes len) : w.extractLsb' start len = 0 := by
  calc w.extractLsb' start len = (w &&& mask).extractLsb' start len := by
        rw [BitVec.extractLsb'_and, covers, BitVec.and_allOnes]
    _ = 0 := by simp [h]

/-- The bits outside ADDR and RD do not reach its fields (R105, R107). -/
theorem Descriptor.ofWords_word0_or (d : Descriptor) {junk : Word} (reserved : junk &&& 0x0001007F = 0) :
    Descriptor.ofWords (d.word0 ||| junk) d.len d.buf = d := by
  have addr : junk.extractLsb' 0 7 = 0 := extractLsb'_eq_zero_of_and reserved (by decide)
  have rd : junk.extractLsb' 16 1 = 0 := extractLsb'_eq_zero_of_and reserved (by decide)
  simp [Descriptor.ofWords, BitVec.extractLsb'_or, addr, rd, d.word0_addr, d.word0_rd]

end Sys2Proof

namespace Sys2Proof.Proofs

/-- Settles O1: the bytes give the words back, and the words decode to their instruction. -/
theorem decodeOfEncodedBytesIsTheInstruction : Obligations.DecodeOfEncodedBytesIsTheInstruction := by
  intro p ph i wellFormed issues
  rw [decode_toBytes]
  exact Laws.RoundTrip.all i p ph wellFormed issues

/-- Settles O5: the junk misses both fields of word 0, and the three words lie as those of a command. -/
theorem descriptorIgnoresReservedBits : Obligations.DescriptorIgnoresReservedBits := by
  intro d junk reserved
  rw [d.toBytes_eq, ← d.word0_toNat]
  exact ⟨d.ofWords_word0_or reserved, Raw.cmd_toBytes_length _ _ _, Raw.cmd_toBytes_word0 _ _ _,
    Raw.cmd_toBytes_word1 _ _ _, Raw.cmd_toBytes_word2 _ _ _⟩

end Sys2Proof.Proofs
end

section
/-! SUPPORT. What a tuple's direction, offset and value say of its row (30_encoding.md R114); settles which tuples decode, which
row a monitor names, and that every register access is a row of the table. -/

namespace Sys2Proof

open Sys2Proof.Machine

/-! ### The accesses of the table -/

theorem offset_of_write_row {row : MicroRow} (write : (rowAccess row).1 = true) :
    regOffset (rowAccess row).2 = 0x00 ∨ regOffset (rowAccess row).2 = 0x04 ∨ regOffset (rowAccess row).2 = 0x10 ∨
      regOffset (rowAccess row).2 = 0x1C ∨ regOffset (rowAccess row).2 = 0x20 := by
  cases row <;> revert write <;> decide

theorem offset_of_read_row {row : MicroRow} (read : (rowAccess row).1 = false) :
    regOffset (rowAccess row).2 = 0x00 ∨ regOffset (rowAccess row).2 = 0x10 ∨ regOffset (rowAccess row).2 = 0x14 ∨
      regOffset (rowAccess row).2 = 0x18 := by
  cases row <;> revert read <;> decide

/-- Every row of R114 is issued by some phase. -/
theorem exists_phaseRow (row : MicroRow) : ∃ ph, phaseRow ph = some row := by
  cases row with
  | start => exact ⟨.txStart, rfl⟩
  | stop => exact ⟨.txStop, rfl⟩
  | cr1Disable => exact ⟨.sfDisable, rfl⟩
  | cr1Restore => exact ⟨.sfRestore, rfl⟩
  | cr1Enable => exact ⟨.opEnable, rfl⟩
  | cr1Read => exact ⟨.sfRdCr1, rfl⟩
  | cr2Init => exact ⟨.opWrCr2, rfl⟩
  | addr => exact ⟨.txAddr, rfl⟩
  | wdata => exact ⟨.txWrByte, rfl⟩
  | rdata => exact ⟨.txRdByte, rfl⟩
  | status => exact ⟨.txStartSt, rfl⟩
  | clraddr => exact ⟨.txAddrClr, rfl⟩
  | ccrSet => exact ⟨.sfWrCcr, rfl⟩
  | triseSet => exact ⟨.sfWrTrise, rfl⟩

/-! ### The row of a tuple -/

/-- A tuple of a row has the row's direction and offset. -/
def RegOp.IsOf (op : RegOp) (row : MicroRow) : Prop := op.w = (rowAccess row).1 ∧ op.off = regOffset (rowAccess row).2

theorem isOf_of_monitorRow {p : Params} {op : RegOp} {row : MicroRow} (h : monitorRow p op = some row) : op.IsOf row := by
  unfold monitorRow at h
  split_ifs at h
  all_goals
    cases h
    constructor <;> simp_all [rowAccess]

/-- A tuple decodes only with the direction and offset of a row, and then to what the row reads in its value. -/
theorem decodeRegOp_eq_ok {p : Params} {ctx : Option Phase} {op : RegOp} {i : Instr} (h : decodeRegOp p ctx op = .ok i) :
    ∃ row, op.IsOf row ∧ decodeRowValue p row op.val = .ok i := by
  cases ctx with
  | none =>
    cases hrow : monitorRow p op with
    | none => simp [decodeRegOp, hrow] at h
    | some row => exact ⟨row, isOf_of_monitorRow hrow, by simpa [decodeRegOp, hrow] using h⟩
  | some ph =>
    cases hrow : phaseRow ph with
    | none => simp [decodeRegOp, hrow] at h
    | some row =>
      simp only [decodeRegOp, hrow] at h
      split_ifs at h with access
      exact ⟨row, access, h⟩

/-- Where the monitor names the row that a phase issues, it reads the tuple as that phase does. -/
theorem decodeRegOp_none_eq {p : Params} {op : RegOp} {row : MicroRow} {ph : Phase} (named : monitorRow p op = some row)
    (issues : phaseRow ph = some row) : decodeRegOp p none op = decodeRegOp p (some ph) op := by
  obtain ⟨direction, offset⟩ := isOf_of_monitorRow named
  simp [decodeRegOp, named, issues, direction, offset]

/-! ### The CR1 words under well-formed masks -/

variable {p : Params}

theorem cr1Masks_ok (hp : paramsOk p = true) :
    p.cr1Pe ≠ 0 ∧ p.cr1Start ≠ 0 ∧ p.cr1Pe &&& p.cr1Start = 0 ∧ p.cr1Start &&& p.cr1Stop = 0 := by
  simp only [paramsOk, masksOk, cr1Masks, disjointMasks, oneBit, List.all_cons, Bool.and_eq_true, bne_iff_ne,
    beq_iff_eq] at hp
  tauto

theorem startWord_ne_stopWord (hp : paramsOk p = true) : startWord p ≠ stopWord p := by
  obtain ⟨-, start, peStart, startStop⟩ := cr1Masks_ok hp
  intro same
  apply start
  calc p.cr1Start = p.cr1Start &&& startWord p := by ext i hi; simp [startWord]; tauto
    _ = p.cr1Start &&& stopWord p := by rw [same]
    _ = 0 := by rw [stopWord, BitVec.and_or_distrib_left, startStop, BitVec.and_comm, peStart]; rfl

/-! ### What a bus monitor names -/

theorem monitorRow_start : monitorRow p (rowOp .start (startWord p)) = some .start := by
  simp [monitorRow, rowOp, rowAccess]

theorem monitorRow_stop (hp : paramsOk p = true) : monitorRow p (rowOp .stop (stopWord p)) = some .stop := by
  simp [monitorRow, rowOp, rowAccess, (startWord_ne_stopWord hp).symm]

theorem monitorRow_cr1Disable {v : Word} (words : v ≠ startWord p ∧ v ≠ stopWord p) (clear : v &&& p.cr1Pe = 0) :
    monitorRow p (rowOp .cr1Disable v) = some .cr1Disable := by
  simp [monitorRow, rowOp, rowAccess, words, clear]

theorem monitorRow_cr1Enable (hp : paramsOk p = true) {v : Word} (words : v ≠ startWord p ∧ v ≠ stopWord p)
    (set : v &&& p.cr1Pe = p.cr1Pe) : monitorRow p (rowOp .cr1Enable v) = some .cr1Enable := by
  obtain ⟨pe, -⟩ := cr1Masks_ok hp
  simp_all [monitorRow, rowOp, rowAccess]

/-- The tuple of a micro-operation names its row, but for CR1_RESTORE and WDATA (R114). -/
theorem monitorRow_encode (hp : paramsOk p = true) {i : Instr} {row : MicroRow} (wellFormed : i.wellFormed p = true)
    (hrow : i.row = some row) (restore : row ≠ .cr1Restore) (wdata : row ≠ .wdata)
    (words : ∀ v, (i = .uopCr1Disable v ∨ i = .uopCr1Enable v) → v ≠ startWord p ∧ v ≠ stopWord p) :
    ∃ op, encode p i = .regop op ∧ monitorRow p op = some row := by
  cases i with
  | cmdOpen | cmdClose | cmdExecuteTransfer | cmdSetFrequency | cmdUnrecognised => cases hrow
  | uopStart =>
    cases hrow
    exact ⟨_, rfl, monitorRow_start⟩
  | uopStop =>
    cases hrow
    exact ⟨_, rfl, monitorRow_stop hp⟩
  | uopCr1Disable v =>
    cases hrow
    exact ⟨_, rfl, monitorRow_cr1Disable (words v (.inl rfl)) (by simpa [Instr.wellFormed] using wellFormed)⟩
  | uopCr1Enable v =>
    cases hrow
    exact ⟨_, rfl, monitorRow_cr1Enable hp (words v (.inr rfl)) (by simpa [Instr.wellFormed] using wellFormed)⟩
  | uopCr1Restore =>
    cases hrow
    exact absurd rfl restore
  | uopWdata =>
    cases hrow
    exact absurd rfl wdata
  | uopCr1Read | uopCr2Init | uopAddr | uopRdata | uopStatus | uopClraddr | uopCcrSet | uopTriseSet =>
    cases hrow
    exact ⟨_, rfl, rfl⟩

/-! ### Commands -/

theorem decodeCommand_eq_unrecognised {code a0 a1 : Word} :
    decodeCommand code a0 a1 = .cmdUnrecognised code a0 a1 ↔ code ≠ 1 ∧ code ≠ 2 ∧ code ≠ 3 ∧ code ≠ 4 := by
  unfold decodeCommand
  split_ifs <;> simp_all

end Sys2Proof

namespace Sys2Proof.Machine

/-! ### The accesses of a step -/

/-- The value of a read's tuple is the peripheral's answer (R70). -/
theorem State.busValue_of_read {row : MicroRow} (read : (rowAccess row).1 = false) (s : State) (v : Word) :
    s.busValue row v = v := by
  cases row with
  | cr1Read | rdata | status | clraddr => rfl
  | start | stop | cr1Disable | cr1Restore | cr1Enable | cr2Init | addr | wdata | ccrSet | triseSet => cases read

theorem busEvent_eq_regRead {op : RegOp} {off : BitVec 8} {v : Word} :
    busEvent op = .regRead off v ↔ op.w = false ∧ op.off = off ∧ op.val = v := by
  unfold busEvent
  split <;> simp_all

theorem State.issued_length_le (s : State) (v : Word) : (s.issued v).length ≤ 1 := Option.length_toList_le

/-- An access that the sequencer's phase issues is a tuple of that phase's row. -/
theorem State.mem_issued_row {s : State} {v : Word} {e : Event} :
    e ∈ s.issued v ↔ ∃ row, phaseRow s.phase = some row ∧ busEvent (rowOp row (s.busValue row v)) = e := by
  simp [State.mem_issued, State.regOp_eq_some]

theorem phase_ne_idle_of_row {ph : Phase} {row : MicroRow} (h : phaseRow ph = some row) : ph ≠ .idle := by
  rintro rfl
  cases h

/-- A step makes at most one register access (R16). -/
theorem step_accesses_length_le {s t : State} (h : step s = .next t) {es : List Event}
    (grown : t.history = s.history ++ es) : (es.filter Event.isAccess).length ≤ 1 := by
  have new : t.accesses = s.accesses ++ es.filter Event.isAccess := by simp [State.accesses, grown]
  obtain none | ⟨v, -, one⟩ := step_accesses h
  · simp [List.append_right_eq_self.mp (new.symm.trans none)]
  · rw [List.append_cancel_left (new.symm.trans one)]
    exact s.issued_length_le v

end Sys2Proof.Machine

namespace Sys2Proof.Proofs

open Sys2Proof.Machine

/-- Settles O2: the monitor names the row, and so reads the tuple as a phase that issues the row does. -/
theorem monitorNamesTheRowFromTheTuple : Obligations.MonitorNamesTheRowFromTheTuple := by
  intro p i row hp wellFormed hrow restore wdata words
  obtain ⟨op, encoded, named⟩ := monitorRow_encode hp wellFormed hrow restore wdata words
  obtain ⟨ph, issues⟩ := exists_phaseRow row
  calc decode p none (encode p i).toBytes = decodeRegOp p none op := by rw [decode_toBytes, encoded]; rfl
    _ = decodeRegOp p (some ph) op := decodeRegOp_none_eq named issues
    _ = decodeRaw p (some ph) (encode p i) := by rw [encoded]; rfl
    _ = .ok i := Laws.RoundTrip.all i p ph wellFormed (.inr (issues.trans hrow.symm))

/-- Settles O4: a tuple that decodes is of a row, and the rows write and read these offsets only. -/
theorem onlyTableEncodingsDecode : Obligations.OnlyTableEncodingsDecode := by
  refine ⟨fun p ctx op i decodes => ?_, fun code a0 a1 => decodeCommand_eq_unrecognised⟩
  obtain ⟨row, ⟨direction, offset⟩, -⟩ := decodeRegOp_eq_ok decodes
  rw [direction, offset]
  exact ⟨offset_of_write_row, offset_of_read_row⟩

/-- Settles O48: an access of a step is the tuple of its phase's row, and a phase issues one tuple at most. -/
theorem registerAccessesAreTableRows : Obligations.RegisterAccessesAreTableRows := by
  intro s t hs
  obtain ⟨es, grown⟩ := (step_continues hs).history
  refine ⟨es, grown.symm, fun off v written => ?_, fun off v wasRead => ?_, ?_⟩
  · obtain ⟨answer, turn, issued⟩ := step_access_issued hs grown.symm written rfl
    obtain ⟨row, hrow, event⟩ := State.mem_issued_row.mp issued
    obtain ⟨write, rfl, -⟩ := busEvent_eq_regWrite.mp event
    exact ⟨offset_of_write_row write, ⟨answer, turn⟩, phase_ne_idle_of_row hrow⟩
  · obtain ⟨answer, turn, issued⟩ := step_access_issued hs grown.symm wasRead rfl
    obtain ⟨row, hrow, event⟩ := State.mem_issued_row.mp issued
    obtain ⟨read, rfl, value⟩ := busEvent_eq_regRead.mp event
    obtain rfl : answer = v := (State.busValue_of_read read s answer).symm.trans value
    exact ⟨offset_of_read_row read, turn, phase_ne_idle_of_row hrow⟩
  · refine Eq.trans_le (congrArg List.length (List.filter_congr fun e _ => ?_)) (step_accesses_length_le hs grown.symm)
    cases e <;> rfl

/-- Settles O3: each closed word decodes by evaluation. -/
theorem wordsOfTheTableDecode : Obligations.WordsOfTheTableDecode := by
  unfold Obligations.WordsOfTheTableDecode
  decide

end Sys2Proof.Proofs
end

section
/-! SUPPORT. The Timing Configurator one instruction at a time (40_timing_configurator.md R130 to R145): settles the dispatch of
SET_FREQUENCY, the micro-operations of its phases, and that its arithmetic never wraps nor divides by 0. -/

namespace Sys2Proof.Machine

/-! ### A micro-operation runs the phase that issues it -/

/-- The micro-operation that a phase's tuple decodes to, run in that phase, has the phase's effect (R114). -/
theorem exec_of_phase {s t : State} {ph : Phase} {row : MicroRow} {v : Word} {i : Instr} (live : s.halted = none)
    (phase : s.phase = ph) (issues : phaseRow ph = some row)
    (decodes : decodeRowValue s.cfg row (s.busValue row v) = .ok i) (effect : phaseEffect v s = t) :
    exec i s = .next t := by
  subst phase
  have issued : s.regOp v = some (rowOp row (s.busValue row v)) := State.regOp_eq_some.mpr ⟨row, issues, rfl⟩
  rw [← sequencerStep_of_decode issued ((decodeRegOp_rowOp s.cfg issues _).trans decodes), sequencerStep_spec live, effect]

/-- A last phase whose access is `e`: the lock free, the status on the owner's port (R77). -/
theorem State.finish_log (s : State) (e : Event) (st : Status) :
    (s.log e).finish st =
      { s with
        lock := .free
        phase := .idle
        req := s.req.set s.x.owner (.done st)
        history := s.history ++ [e, .lockRel s.x.owner, .complete s.x.owner st] } := by
  simp [State.finish_eq, State.log, State.setSlot, State.goto, State.setLock]

/-! ### The parameters under their constraints (R9, R11, R246) -/

variable {p : Params}

theorem numbersOk_of_paramsOk (hp : paramsOk p = true) :
    p.base &&& 3 = 0 ∧ p.fastMaxHz.toNat * 3 < 2 ^ 32 ∧ p.stdTimeConst ≠ 0 ∧ p.fastTimeConst ≠ 0 ∧ p.useDuty = false := by
  simp only [paramsOk, numbersOk, Bool.and_eq_true, beq_iff_eq, bne_iff_ne, decide_eq_true_eq, Bool.not_eq_true'] at hp
  tauto

theorem State.paramsOk_of_live {s : State} (live : s.halted = none) : paramsOk s.cfg = true :=
  (State.halted_eq_none.mp live).2

/-! ### The arithmetic (R133 to R137) -/

theorem quotient_of_ne_zero (a : Word) {b : Word} (h : b ≠ 0) : quotient a b = a / b := if_neg h

theorem overCeiling_eq_false {hz : Word} : overCeiling p hz = false ↔ hz.toNat ≤ p.fastMaxHz.toNat := by
  rw [← Bool.not_eq_true, overCeiling_iff, not_lt]

theorem isFast_eq_decide (hz : Word) : isFast p hz = decide (hz.toNat > p.stdMaxHz.toNat) := rfl

/-- The product of the divider formula does not wrap for a frequency in range (R134). -/
theorem toNat_mul_three (hp : paramsOk p = true) {hz : Word} (inRange : hz.toNat ≤ p.fastMaxHz.toNat) :
    (hz * 3).toNat = hz.toNat * 3 := by
  obtain ⟨-, ceiling, -⟩ := numbersOk_of_paramsOk hp
  rw [BitVec.toNat_mul]
  exact Nat.mod_eq_of_lt (lt_of_le_of_lt (Nat.mul_le_mul_right 3 inRange) ceiling)

theorem mul_three_ne_zero (hp : paramsOk p = true) {hz : Word} (nonzero : hz ≠ 0)
    (inRange : hz.toNat ≤ p.fastMaxHz.toNat) : hz * 3 ≠ 0 := by
  have product := toNat_mul_three hp inRange
  intro zero
  rw [zero] at product
  exact nonzero (BitVec.eq_of_toNat_eq (by simpa using product.symm))

/-- The computed values are the quotients the rules name: no duty-cycle branch, no quotient by 0. -/
theorem computeTiming_eq (hp : paramsOk p = true) {x : Regs} (nonzero : x.hz ≠ 0)
    (inRange : x.hz.toNat ≤ p.fastMaxHz.toNat) :
    computeTiming p x =
      { x with
        fast := decide (x.hz.toNat > p.stdMaxHz.toNat)
        div := p.inputClockHz / (x.hz * 3)
        tr := p.inputClockHz / (if x.hz.toNat > p.stdMaxHz.toNat then p.fastTimeConst else p.stdTimeConst) + 1 } := by
  obtain ⟨-, -, std, fast, noDuty⟩ := numbersOk_of_paramsOk hp
  have timeConst : (if x.hz.toNat > p.stdMaxHz.toNat then p.fastTimeConst else p.stdTimeConst) ≠ 0 := by
    split_ifs <;> assumption
  simp only [computeTiming, isFast_eq_decide, dividerOf, noDuty, Bool.false_and, Bool.false_eq_true, if_false, plainDivider,
    quotient_of_ne_zero _ (mul_three_ne_zero hp nonzero inRange), riseOf, decide_eq_true_eq,
    quotient_of_ne_zero _ timeConst]

/-- The CCR word has no duty-cycle bit (R110, R136). -/
theorem ccrWord_eq (hp : paramsOk p = true) (x : Regs) :
    ccrWord p x = (if x.fast = true then p.ccrFs else 0) ||| x.div := by
  obtain ⟨-, -, -, -, noDuty⟩ := numbersOk_of_paramsOk hp
  simp [ccrWord, noDuty]

/-- A register address is a multiple of 4: the base is, and every offset is (R31, R64). -/
theorem regAddress_aligned (hp : paramsOk p = true) (r : Reg) : (regAddress p r).toNat % 4 = 0 := by
  obtain ⟨aligned, -⟩ := numbersOk_of_paramsOk hp
  have base : p.base.toNat % 4 = 0 := by
    calc p.base.toNat % 4 = (p.base &&& 3).toNat := (Nat.and_two_pow_sub_one_eq_mod p.base.toNat 2).symm
      _ = 0 := by rw [aligned]; rfl
  have offset : (regOffset r).toNat % 4 = 0 := by cases r <;> rfl
  have narrow := (regOffset r).isLt
  simp only [regAddress, BitVec.toNat_add, BitVec.toNat_setWidth]
  omega

/-! ### The dispatch of SET_FREQUENCY (R131, R132, R139) -/

theorem exec_cmdSetFrequency {s : State} {hz a1 : Word} (live : s.halted = none)
    (shown : s.slot s.port = .submitted 4 hz a1) :
    exec (.cmdSetFrequency hz a1) s = .next (setFrequencyCase hz a1 (s.log (.dispatch s.port 4))) :=
  dispatching_eq_next.mpr ⟨live, shown, rfl⟩

variable {s : State} {hz : Word}

theorem setFrequencyCase_of_closed (closed : s.dev = .closed) (hz a1 : Word) :
    setFrequencyCase hz a1 s = s.complete s.port .einval := by
  simp [setFrequencyCase, closed]

theorem setFrequencyCase_of_above (opened : s.dev = .opened) (above : hz.toNat > s.cfg.fastMaxHz.toNat) (a1 : Word) :
    setFrequencyCase hz a1 s =
      if s.cfg.rejectTouchesCr1 then s.setSlot s.port (.waitLock 4 hz a1) else s.complete s.port .einval := by
  simp [setFrequencyCase, opened, overCeiling_iff.mpr above]

theorem setFrequencyCase_of_zero (opened : s.dev = .opened) (a1 : Word) :
    setFrequencyCase 0 a1 s = s.raiseFault .setFreqZeroHz := by
  have below : overCeiling s.cfg 0 = false := overCeiling_eq_false.mpr (Nat.zero_le _)
  rw [setFrequencyCase, if_neg (by simp [opened]), if_neg (Bool.eq_false_iff.mp below), if_pos rfl]

theorem setFrequencyCase_of_inRange (opened : s.dev = .opened) (nonzero : hz ≠ 0)
    (inRange : hz.toNat ≤ s.cfg.fastMaxHz.toNat) (a1 : Word) :
    setFrequencyCase hz a1 s = s.setSlot s.port (.waitLock 4 hz a1) := by
  have below : overCeiling s.cfg hz = false := overCeiling_eq_false.mpr inRange
  rw [setFrequencyCase, if_neg (by simp [opened]), if_neg (Bool.eq_false_iff.mp below), if_neg nonzero]

end Sys2Proof.Machine

namespace Sys2Proof.Proofs

open Sys2Proof.Machine Sys2Proof.Safety

/-- Settles O55: a frequency the routine runs on is in range, and there the product fits and no divisor is 0. -/
theorem noWrapNoZeroDivisor : Obligations.NoWrapNoZeroDivisor := by
  intro s inv live
  have hp : paramsOk s.cfg = true := State.paramsOk_of_live live
  refine ⟨fun phase => ?_, regAddress_aligned hp⟩
  obtain ⟨nonzero, below⟩ := inv.work.hz (.inr phase)
  have inRange : s.x.hz.toNat ≤ s.cfg.fastMaxHz.toNat := overCeiling_eq_false.mp below
  obtain ⟨-, -, std, fast, -⟩ := numbersOk_of_paramsOk hp
  exact ⟨toNat_mul_three hp inRange, mul_three_ne_zero hp nonzero inRange, std, fast⟩

/-- Settles O9, one case of the dispatch for each clause. -/
theorem setFrequencyDispatchCases : Obligations.SetFrequencyDispatchCases := by
  intro s hz a1 live shown
  rw [exec_cmdSetFrequency live shown]
  have unmarked : s.fault = none := (State.halted_eq_none.mp live).1
  refine ⟨fun closed => ?_, fun opened above touches => ?_, fun opened above touches => ?_, fun opened zero => ?_,
    fun opened nonzero inRange => ?_⟩
  · rw [setFrequencyCase_of_closed (s := s.log _) closed]
    simp [State.complete, State.log, State.setSlot]
  · rw [setFrequencyCase_of_above (s := s.log _) opened above, if_neg (by simp [touches])]
    simp [State.complete, State.log, State.setSlot]
  · rw [setFrequencyCase_of_above (s := s.log _) opened above, if_pos (by simp [touches])]
    rfl
  · rw [zero, setFrequencyCase_of_zero (s := s.log _) opened, State.raiseFault_of_none (s := s.log _) unmarked]
    simp [State.log]
  · rw [setFrequencyCase_of_inRange (s := s.log _) opened nonzero inRange]
    rfl

/-- Settles O17: each phase that issues CR1_READ keeps the answer. -/
theorem cr1ReadKeepsTheValue : Obligations.Cr1ReadKeepsTheValue := by
  intro s v live
  refine ⟨fun phase => ?_, fun phase => ?_, fun phase => ?_, fun phase => ?_⟩
  all_goals
    refine exec_of_phase (v := v) live phase rfl rfl ?_
    rw [phaseEffect, phase]
    rfl

/-- Settles O18: in range the computed words are the quotients, read as naturals without a wrap of the product. -/
theorem sfDisableComputesTheTiming : Obligations.SfDisableComputesTheTiming := by
  intro s live phase nonzero inRange
  have hp : paramsOk s.cfg = true := State.paramsOk_of_live live
  have word : s.busValue .cr1Disable 0 = disableWord s.cfg s.x.old := if_neg (by simp [phase])
  have decodes : decodeRowValue s.cfg .cr1Disable (s.busValue .cr1Disable 0) =
      .ok (.uopCr1Disable (disableWord s.cfg s.x.old)) := by
    rw [word]
    exact if_pos (disableWord_and_pe _ _)
  have timing : (sfDisable s).x = _ := computeTiming_eq hp nonzero inRange
  refine ⟨sfDisable s, exec_of_phase live phase rfl decodes (by rw [phaseEffect, phase]), by rw [timing], ?_, ?_, rfl⟩
  · rw [timing, BitVec.toNat_udiv, toNat_mul_three hp inRange]
  · rw [timing, BitVec.toNat_add, BitVec.toNat_udiv, apply_ite BitVec.toNat]
    rfl

/-- Settles O20: the saved word is what each of the two phases writes, and `x[RET]` decides what follows. -/
theorem cr1RestoreWritesTheSavedWord : Obligations.Cr1RestoreWritesTheSavedWord := by
  intro s live
  refine ⟨fun phase ret => ?_, fun phase ret => ?_, fun phase => ?_⟩
  · refine exec_of_phase (v := 0) live phase rfl rfl ?_
    rw [phaseEffect, phase, sfRestore, ret]
    exact s.finish_log _ _
  · refine exec_of_phase (v := 0) live phase rfl rfl ?_
    rw [phaseEffect, phase, sfRestore, ret]
    rfl
  · refine exec_of_phase (v := 0) live phase rfl rfl ?_
    rw [phaseEffect, phase]
    exact s.finish_log _ _

/-- Settles O22: without the duty-cycle branch the CCR word is grade bit OR divider. -/
theorem timingRegistersWritten : Obligations.TimingRegistersWritten := by
  intro s live
  rw [← ccrWord_eq (State.paramsOk_of_live live)]
  refine ⟨fun phase => ?_, fun phase => ?_⟩
  · refine exec_of_phase (v := 0) live phase rfl rfl ?_
    rw [phaseEffect, phase]
    rfl
  · refine exec_of_phase (v := 0) live phase rfl rfl ?_
    rw [phaseEffect, phase]
    rfl

end Sys2Proof.Proofs
end

section
/-! SUPPORT. What a phase of the sequencer leaves alone; settles the frame of the micro-operations (30_encoding.md R114). -/

namespace Sys2Proof.Machine

variable {s t : State}

/-! ### The frame of a phase -/

/-- `t` is what a phase of the sequencer may make of `s`: no port but the owner's is written, only TX_RD_BYTE stores into
caller memory, and only the status reads of the start and the address write the latch. -/
structure Frame (s t : State) : Prop where
  lent : t.lent = s.lent
  cfg : t.cfg = s.cfg
  sig : t.sig = s.sig
  evtEn : t.evtEn = s.evtEn
  errEn : t.errEn = s.errEn
  evtLine : t.evtLine = s.evtLine
  errLine : t.errLine = s.errLine
  allocOk : t.allocOk = s.allocOk
  port : t.port = s.port
  turns : t.turns = s.turns
  tick : t.tick = s.tick
  owner : t.x.owner = s.x.owner
  slots : ∀ q, q ≠ s.x.owner → t.slot q = s.slot q
  memory : s.phase ≠ .txRdByte → t.cmem = s.cmem
  latch : s.phase ≠ .txStartSt → s.phase ≠ .txAddrSt → t.errSr1 = s.errSr1

namespace Frame

@[simp] theorem refl (s : State) : Frame s s := by
  constructor <;> intros <;> rfl

@[simp] theorem log_iff (e : Event) : Frame s (t.log e) ↔ Frame s t := ⟨fun h => { h with }, fun h => { h with }⟩

@[simp] theorem goto_iff (ph : Phase) : Frame s (t.goto ph) ↔ Frame s t := ⟨fun h => { h with }, fun h => { h with }⟩

@[simp] theorem setDev_iff (d : Dev) : Frame s (t.setDev d) ↔ Frame s t := ⟨fun h => { h with }, fun h => { h with }⟩

theorem setX (h : Frame s t) {x : Regs} (owner : x.owner = t.x.owner) : Frame s (t.setX x) :=
  { h with owner := owner.trans h.owner }

theorem raiseFault (h : Frame s t) (f : Fault) : Frame s (t.raiseFault f) := by
  cases hf : t.fault with
  | none => rw [State.raiseFault_of_none hf]; exact { h with }
  | some g => rwa [State.raiseFault_of_some hf]

theorem finish (h : Frame s t) (st : Status) : Frame s (t.finish st) :=
  { h with
    slots := fun q other => by
      have ne : t.x.owner ≠ q := fun e => other (e.symm.trans h.owner)
      simp [State.finish_eq, ne, h.slots q other] }

theorem restoreInterrupts (h : Frame s t) : Frame s t.restoreInterrupts := { h with }

theorem maskInterrupts (h : Frame s t) : Frame s t.maskInterrupts := { h with }

theorem raiseTimeout (h : Frame s t) : Frame s t.raiseTimeout := { h with }

theorem raiseBusError (h : Frame s t) (status : s.phase = .txStartSt ∨ s.phase = .txAddrSt) (v : Word) :
    Frame s (t.raiseBusError v) :=
  { h with latch := by tauto }

theorem cmemStore (h : Frame s t) (reading : s.phase = .txRdByte) (a : Word) (b : Byte) : Frame s (t.cmemStore a b) :=
  { h with memory := (absurd reading ·) }

end Frame

/-! ### The phases with a case split -/

theorem sfRestore_frame (s : State) : Frame s (sfRestore s) := by
  unfold sfRestore
  split
  · exact .finish (by simp) _
  · simp

theorem clDisable_frame (s : State) : Frame s (clDisable s) := by
  unfold clDisable
  dsimp only
  split_ifs
  · exact .raiseFault (by simp) _
  · exact .finish (by simp) _

theorem txFetch_frame (s : State) : Frame s (txFetch s) := by
  unfold txFetch
  split_ifs
  · exact .raiseFault (by simp) _
  dsimp only
  split
  · exact .raiseFault (by simp) _
  split
  · exact .raiseFault (by simp) _
  split
  · exact .raiseFault (by simp) _
  · exact (Frame.goto_iff _).mpr (.setX (by simp) rfl)

theorem checkedStatus_frame {s : State} (status : s.phase = .txStartSt ∨ s.phase = .txAddrSt) (v : Word) (good : Phase) :
    Frame s (checkedStatus v good s) := by
  have recorded : Frame s ((s.regRead .sr1 v).setX { s.x with sr := v }) := .setX (by simp) rfl
  unfold checkedStatus
  dsimp only
  split_ifs
  · exact recorded.raiseBusError status v
  · simpa using recorded

theorem txData_frame (s : State) : Frame s (txData s) := by
  have cleared : Frame s (s.setX { s.x with bi := 0 }) := .setX (.refl s) rfl
  unfold txData
  dsimp only
  split_ifs
  · simpa using cleared
  · simpa using cleared
  · exact (Frame.goto_iff _).mpr (.restoreInterrupts (.setX cleared.maskInterrupts rfl))
  · exact (Frame.goto_iff _).mpr (.setX cleared.maskInterrupts rfl)

theorem txRdByte_frame {s : State} (reading : s.phase = .txRdByte) (v : Word) : Frame s (txRdByte v s) := by
  unfold txRdByte
  dsimp only
  split_ifs
  · exact (Frame.goto_iff _).mpr (.setX (.cmemStore (by simp) reading _ _) rfl)
  · exact (Frame.goto_iff _).mpr (.setX (.cmemStore (by simp) reading _ _) rfl)
  · exact .raiseFault (by simp) _

theorem txWrPoll_frame (v : Word) (s : State) : Frame s (txWrPoll v s) := by
  have polled : Frame s ((s.regRead .sr1 v).setX { s.x with sr := v, polls := s.x.polls + 1 }) := .setX (by simp) rfl
  unfold txWrPoll
  dsimp only
  split_ifs
  · simpa using polled
  · exact polled.raiseTimeout
  · simpa using polled

theorem txWrByte_frame (s : State) : Frame s (txWrByte s) := by
  unfold txWrByte
  split
  · exact .raiseFault (by simp) _
  · dsimp only
    split_ifs
    · exact (Frame.goto_iff _).mpr (.setX (by simp) rfl)
    · exact (Frame.goto_iff _).mpr (.restoreInterrupts (.setX (by simp) rfl))

theorem txNext_frame (s : State) : Frame s (txNext s) := by
  unfold txNext
  split_ifs <;> exact { Frame.refl s with }

/-- The phases not named here are one line of small updates. -/
theorem phaseEffect_frame (v : Word) (s : State) : Frame s (phaseEffect v s) := by
  unfold phaseEffect
  cases phase : s.phase with
  | sfRestore => exact sfRestore_frame s
  | clDisable => exact clDisable_frame s
  | txFetch => exact txFetch_frame s
  | txStartSt => exact checkedStatus_frame (.inl phase) v .txAddr
  | txAddrSt => exact checkedStatus_frame (.inr phase) v .txAddrClr
  | txData => exact txData_frame s
  | txRdByte => exact txRdByte_frame phase v
  | txWrPoll => exact txWrPoll_frame v s
  | txWrByte => exact txWrByte_frame s
  | txNext => exact txNext_frame s
  | sfrRestore | opEnable | txDone => exact .finish (by simp) _
  | _ => exact { Frame.refl s with }

/-! ### The working registers, row by row -/

/-- `y` is `x` but for the working registers that a phase of the row writes. -/
def RegsKept (x y : Regs) : MicroRow → Prop
  | .start | .stop | .addr | .clraddr | .ccrSet | .triseSet | .cr1Restore | .cr1Enable => y = x
  | .cr1Read => y = { x with old := y.old, tmp := y.tmp }
  | .cr1Disable => y = { x with fast := y.fast, div := y.div, tr := y.tr }
  | .cr2Init => y = { x with hz := y.hz, ret := y.ret }
  | .status => y = { x with sr := y.sr, polls := y.polls, err := y.err }
  | .wdata => y = { x with bi := y.bi, polls := y.polls }
  | .rdata => y = { x with bi := y.bi }

theorem sfRestore_regsKept (s : State) : RegsKept s.x (sfRestore s).x .cr1Restore := by
  unfold sfRestore
  split <;> rfl

theorem clDisable_regsKept (s : State) : RegsKept s.x (clDisable s).x .cr1Disable := by
  unfold clDisable
  dsimp only
  split_ifs
  · simp [RegsKept]
  · rfl

theorem checkedStatus_regsKept (v : Word) (good : Phase) (s : State) :
    RegsKept s.x (checkedStatus v good s).x .status := by
  unfold checkedStatus
  dsimp only
  split_ifs <;> rfl

theorem txWrPoll_regsKept (v : Word) (s : State) : RegsKept s.x (txWrPoll v s).x .status := by
  unfold txWrPoll
  dsimp only
  split_ifs <;> rfl

theorem txRdByte_regsKept (v : Word) (s : State) : RegsKept s.x (txRdByte v s).x .rdata := by
  unfold txRdByte
  dsimp only
  split_ifs
  · rfl
  · rfl
  · simp [RegsKept]

theorem txWrByte_regsKept (s : State) : RegsKept s.x (txWrByte s).x .wdata := by
  unfold txWrByte
  split
  · simp [RegsKept]
  · dsimp only
    split_ifs <;> rfl

/-- The phases not named here are one line of small updates, or issue no row. -/
theorem phaseEffect_regsKept (v : Word) (s : State) :
    ∀ row, phaseRow s.phase = some row → RegsKept s.x (phaseEffect v s).x row := by
  unfold phaseEffect
  cases s.phase with
  | sfRestore => rintro _ ⟨⟩; exact sfRestore_regsKept s
  | clDisable => rintro _ ⟨⟩; exact clDisable_regsKept s
  | txStartSt => rintro _ ⟨⟩; exact checkedStatus_regsKept v .txAddr s
  | txAddrSt => rintro _ ⟨⟩; exact checkedStatus_regsKept v .txAddrClr s
  | txRdByte => rintro _ ⟨⟩; exact txRdByte_regsKept v s
  | txWrPoll => rintro _ ⟨⟩; exact txWrPoll_regsKept v s
  | txWrByte => rintro _ ⟨⟩; exact txWrByte_regsKept s
  | idle | txFetch | txData | txNext | txDone => rintro _ ⟨⟩
  | _ => rintro _ ⟨⟩; rfl

theorem phase_of_rdata {ph : Phase} (issues : phaseRow ph = some .rdata) : ph = .txRdByte := by
  cases ph with
  | txRdByte => rfl
  | _ => cases issues

/-- TX_RD_BYTE stores at its byte address only (R171). -/
theorem txRdByte_read_other (v : Word) (s : State) {a : Nat} (other : a ≠ (byteAddress s.x).toNat) :
    (txRdByte v s).cmem.read a = s.cmem.read a := by
  unfold txRdByte
  dsimp only
  split_ifs
  · exact Memory.read_write_other s.cmem _ other
  · exact Memory.read_write_other s.cmem _ other
  · simp

/-! ### The micro-operations -/

/-- A micro-operation that answers a next state has the effect of a phase that issues its row. -/
theorem exec_micro_eq_next {i : Instr} {row : MicroRow} (hrow : i.row = some row) (h : exec i s = .next t) :
    phaseRow s.phase = some row ∧ ∃ v, t = phaseEffect v s := by
  cases i with
  | cmdOpen | cmdClose | cmdExecuteTransfer | cmdSetFrequency | cmdUnrecognised => cases hrow
  | uopCr1Read v | uopRdata v | uopStatus v | uopClraddr v =>
    cases hrow
    obtain ⟨-, h⟩ := guarded_eq_next.mp h
    refine ⟨?_, v, ?_⟩ <;> split at h <;> simp_all [phaseRow, phaseEffect]
  | uopStart | uopStop | uopCr1Disable | uopCr1Restore | uopCr1Enable | uopCr2Init | uopAddr | uopWdata | uopCcrSet
  | uopTriseSet =>
    cases hrow
    obtain ⟨-, h⟩ := guarded_eq_next.mp h
    refine ⟨?_, 0, ?_⟩ <;> split at h <;> simp_all [phaseRow, phaseEffect, issuing_eq_next]

end Sys2Proof.Machine

namespace Sys2Proof.Proofs

open Sys2Proof.Machine

/-- Settles O42: a micro-operation has the effect of a phase of its row, and no phase writes outside its frame. -/
theorem microOperationsLeaveTheRestAlone : Obligations.MicroOperationsLeaveTheRestAlone := by
  intro i row s t hrow h
  obtain ⟨issues, v, rfl⟩ := exec_micro_eq_next hrow h
  obtain ⟨lent, cfg, sig, evtEn, errEn, evtLine, errLine, allocOk, port, turns, tick, -, slots, memory, latch⟩ :=
    phaseEffect_frame v s
  have kept := phaseEffect_regsKept v s row issues
  have elsewhere {ph : Phase} {r : MicroRow} (issued : phaseRow ph = some r) (other : row ≠ r) : s.phase ≠ ph :=
    fun phase => other (Option.some.inj (issues.symm.trans (phase ▸ issued)))
  have notData : s.phase ≠ .txData := fun phase => by
    rw [phase] at issues
    cases issues
  refine ⟨fun other a => by rw [memory (elsewhere rfl other)], ?_, lent, cfg, sig, evtEn, errEn, evtLine, errLine, allocOk,
    port, turns, tick, slots, fun other => phaseEffect_dev v (elsewhere rfl other),
    fun status wdata => phaseEffect_irqMask v notData (elsewhere rfl status) (elsewhere rfl wdata),
    fun other => latch (elsewhere rfl other) (elsewhere rfl other), ?_, ?_, ?_, ?_, ?_, ?_, ?_⟩
  · rintro rfl a other
    have phase : s.phase = .txRdByte := phase_of_rdata issues
    simpa [phaseEffect, phase] using txRdByte_read_other v s other
  · rintro (rfl | rfl | rfl | rfl | rfl | rfl | rfl | rfl) <;> exact kept
  all_goals
    rintro rfl
    exact kept

end Sys2Proof.Proofs
end

section
/-! SUPPORT. Runs of given turns, one turn at a time; settles SET_FREQUENCY from dispatch to completion, accepted and rejected
(40_timing_configurator.md R130, R138). -/

namespace Sys2Proof.Machine

variable {s : State}

/-- The state in which a turn is made that leaves the input levels as they are, `ts` the turns after it. -/
def State.tookTurn (s : State) (ts : List Turn) : State := { s with turns := ts, tick := s.tick + 1 }

@[simp] theorem State.tookTurn_phase (s : State) (ts : List Turn) : (s.tookTurn ts).phase = s.phase := rfl

@[simp] theorem State.tookTurn_x (s : State) (ts : List Turn) : (s.tookTurn ts).x = s.x := rfl

theorem State.eq_of_turns {ts : List Turn} (left : s.turns = ts) : { s with turns := ts } = s := by
  subst left
  rfl

theorem phaseEffect_turnFor (v : Word) (s : State) (m : Move) : (phaseEffect v s).turnFor m = s.turnFor m := by
  have frame := phaseEffect_frame v s
  simp [State.turnFor, frame.evtLine, frame.errLine, frame.allocOk]

theorem acquire_turnFor (r : Nat) (s : State) (m : Move) : (acquire r s).turnFor m = s.turnFor m := by
  unfold acquire startWaiting
  split
  · split_ifs <;> rfl
  · rfl

end Sys2Proof.Machine

namespace Sys2Proof.Safety

open Sys2Proof.Machine

variable {s : State}

/-! ### One turn of a run -/

/-- The first turn of a run, with the input levels as they are: its move's effect, then the other turns. -/
theorem runTurns_cons (live : s.halted = none) (m : Move) (ts : List Turn) :
    runTurns s (s.turnFor m :: ts) = runTurns (moveEffect m (s.tookTurn ts)) ts := by
  have first : step { s with turns := s.turnFor m :: ts } = .next (moveEffect m (s.tookTurn ts)) := step_of_live live
  have left : (moveEffect m (s.tookTurn ts)).turns = ts := (moveEffect_continues m (s.tookTurn ts)).turns
  unfold runTurns
  rw [State.eq_of_turns left]
  simp only [List.length_cons, Host.Core.run, core, first]

/-- A run of the sequencer, one phase at a time. -/
theorem runSequencer_cons (live : s.halted = none) (v : Word) (vs : List Word) :
    runSequencer s (v :: vs) = runSequencer (phaseEffect v (s.tookTurn (sequencerTurns s vs))) vs := by
  have levels : sequencerTurns s vs = sequencerTurns (phaseEffect v (s.tookTurn (sequencerTurns s vs))) vs := by
    simp only [sequencerTurns, phaseEffect_turnFor]
    rfl
  refine (runTurns_cons live (.sequencer v) (sequencerTurns s vs)).trans ?_
  rw [runSequencer, ← levels]
  rfl

/-- A run that begins with an acquisition goes on as a run of the sequencer. -/
theorem runTurns_acquire (live : s.halted = none) (r : Nat) (vs : List Word) :
    runTurns s (s.turnFor (.acquire r) :: sequencerTurns s vs) =
      runSequencer (acquire r (s.tookTurn (sequencerTurns s vs))) vs := by
  have levels : sequencerTurns s vs = sequencerTurns (acquire r (s.tookTurn (sequencerTurns s vs))) vs := by
    simp only [sequencerTurns, acquire_turnFor]
    rfl
  rw [runTurns_cons live, runSequencer, ← levels]
  rfl

/-! ### Phases of a command under the lock -/

/-- `u` is `s` after phases that logged `es` and kept device state, lock and ports; they left the working registers as `x` and
the phase as `ph`. -/
structure Proceeds (s : State) (x : Regs) (ph : Phase) (es : List Event) (u : State) : Prop where
  cfg : u.cfg = s.cfg
  fault : u.fault = s.fault
  dev : u.dev = s.dev
  lock : u.lock = s.lock
  req : u.req = s.req
  regs : u.x = x
  phase : u.phase = ph
  history : u.history = s.history ++ es

/-- `u` is `s` after the last phases of the owner's command, which logged `es` and ended it with `st` (R77). -/
structure Ends (s : State) (st : Status) (es : List Event) (u : State) : Prop where
  lock : u.lock = .free
  phase : u.phase = .idle
  req : u.req = s.req.set s.x.owner (.done st)
  history : u.history = s.history ++ es ++ [Event.lockRel s.x.owner, Event.complete s.x.owner st]

variable {u w : State} {x x' : Regs} {ph ph' : Phase} {es es' : List Event}

theorem Proceeds.live (h : Proceeds s x ph es u) (live : s.halted = none) : u.halted = none := by
  rwa [State.halted, h.fault, h.cfg]

theorem Proceeds.trans (h : Proceeds s x ph es u) (h' : Proceeds u x' ph' es' w) : Proceeds s x' ph' (es ++ es') w where
  cfg := h'.cfg.trans h.cfg
  fault := h'.fault.trans h.fault
  dev := h'.dev.trans h.dev
  lock := h'.lock.trans h.lock
  req := h'.req.trans h.req
  regs := h'.regs
  phase := h'.phase
  history := by rw [h'.history, h.history, List.append_assoc]

theorem Proceeds.ends {st : Status} (h : Proceeds s x ph es u) (h' : Ends u st es' w) (owner : x.owner = s.x.owner) :
    Ends s st (es ++ es') w where
  lock := h'.lock
  phase := h'.phase
  req := by rw [h'.req, h.req, h.regs, owner]
  history := by simp [h'.history, h.history, h.regs, owner]

/-- One turn of the sequencer in a phase with one access, `e`. -/
theorem runSequencer_access {v : Word} {e : Event} (live : s.halted = none)
    (effect : ∀ ts, phaseEffect v (s.tookTurn ts) = (((s.tookTurn ts).log e).setX x).goto ph) (vs : List Word) :
    ∃ u, runSequencer s (v :: vs) = runSequencer u vs ∧ Proceeds s x ph [e] u := by
  refine ⟨_, runSequencer_cons live v vs, ?_⟩
  rw [effect]
  exact ⟨rfl, rfl, rfl, rfl, rfl, rfl, rfl, rfl⟩

/-- The last turn of the sequencer for a command whose last phase has one access, `e`. -/
theorem runSequencer_last {v : Word} {e : Event} {st : Status} (live : s.halted = none)
    (effect : ∀ ts, phaseEffect v (s.tookTurn ts) = ((s.tookTurn ts).log e).finish st) :
    ∃ u, runSequencer s [v] = .next u ∧ Ends s st [e] u := by
  refine ⟨_, runSequencer_cons live v [], ?_⟩
  rw [effect, State.finish_log]
  exact ⟨rfl, rfl, rfl, by simp [State.tookTurn]⟩

/-! ### The phases of the Timing Configurator (R138 to R145) -/

section Phases

variable (live : s.halted = none) (v : Word) (vs : List Word)
include live

theorem runSequencer_sfRdCr1 (phase : s.phase = .sfRdCr1) :
    ∃ u, runSequencer s (v :: vs) = runSequencer u vs ∧
      Proceeds s { s.x with old := v } .sfDisable [.regRead 0x00 v] u :=
  runSequencer_access live (fun ts => by rw [phaseEffect, State.tookTurn_phase, phase]; rfl) vs

theorem runSequencer_sfDisable (phase : s.phase = .sfDisable) :
    ∃ u, runSequencer s (v :: vs) = runSequencer u vs ∧
      Proceeds s (computeTiming s.cfg s.x) .sfWrCcr [.regWrite 0x00 (disableWord s.cfg s.x.old)] u :=
  runSequencer_access live (fun ts => by rw [phaseEffect, State.tookTurn_phase, phase]; rfl) vs

theorem runSequencer_sfWrCcr (phase : s.phase = .sfWrCcr) :
    ∃ u, runSequencer s (v :: vs) = runSequencer u vs ∧
      Proceeds s s.x .sfWrTrise [.regWrite 0x1C (ccrWord s.cfg s.x)] u :=
  runSequencer_access live (fun ts => by rw [phaseEffect, State.tookTurn_phase, phase]; rfl) vs

theorem runSequencer_sfWrTrise (phase : s.phase = .sfWrTrise) :
    ∃ u, runSequencer s (v :: vs) = runSequencer u vs ∧ Proceeds s s.x .sfRestore [.regWrite 0x20 s.x.tr] u :=
  runSequencer_access live (fun ts => by rw [phaseEffect, State.tookTurn_phase, phase]; rfl) vs

theorem runSequencer_sfRestore (phase : s.phase = .sfRestore) (ret : s.x.ret = .ioctl) :
    ∃ u, runSequencer s [v] = .next u ∧ Ends s .ok [.regWrite 0x00 s.x.old] u :=
  runSequencer_last live fun ts => by
    rw [phaseEffect, State.tookTurn_phase, phase, sfRestore, State.tookTurn_x, ret]
    rfl

theorem runSequencer_sfrRdCr1 (phase : s.phase = .sfrRdCr1) :
    ∃ u, runSequencer s (v :: vs) = runSequencer u vs ∧
      Proceeds s { s.x with old := v } .sfrDisable [.regRead 0x00 v] u :=
  runSequencer_access live (fun ts => by rw [phaseEffect, State.tookTurn_phase, phase]; rfl) vs

theorem runSequencer_sfrDisable (phase : s.phase = .sfrDisable) :
    ∃ u, runSequencer s (v :: vs) = runSequencer u vs ∧
      Proceeds s s.x .sfrRestore [.regWrite 0x00 (disableWord s.cfg s.x.old)] u :=
  runSequencer_access live (fun ts => by rw [phaseEffect, State.tookTurn_phase, phase]; rfl) vs

theorem runSequencer_sfrRestore (phase : s.phase = .sfrRestore) :
    ∃ u, runSequencer s [v] = .next u ∧ Ends s .einval [.regWrite 0x00 s.x.old] u :=
  runSequencer_last live fun ts => by rw [phaseEffect, State.tookTurn_phase, phase]; rfl

/-- The accesses of the set-frequency routine before its last (R141 to R144). -/
theorem runSequencer_routine (phase : s.phase = .sfRdCr1) :
    ∃ u, runSequencer s (v :: 0 :: 0 :: 0 :: vs) = runSequencer u vs ∧
      Proceeds s (computeTiming s.cfg { s.x with old := v }) .sfRestore
        [.regRead 0x00 v, .regWrite 0x00 (disableWord s.cfg v),
          .regWrite 0x1C (ccrWord s.cfg (computeTiming s.cfg { s.x with old := v })),
          .regWrite 0x20 (computeTiming s.cfg { s.x with old := v }).tr] u := by
  obtain ⟨s1, run1, h1⟩ := runSequencer_sfRdCr1 live v (0 :: 0 :: 0 :: vs) phase
  obtain ⟨s2, run2, h2⟩ := runSequencer_sfDisable (h1.live live) 0 (0 :: 0 :: vs) h1.phase
  rw [h1.regs, h1.cfg] at h2
  have h12 := h1.trans h2
  obtain ⟨s3, run3, h3⟩ := runSequencer_sfWrCcr (h12.live live) 0 (0 :: vs) h12.phase
  rw [h12.regs, h12.cfg] at h3
  have h13 := h12.trans h3
  obtain ⟨s4, run4, h4⟩ := runSequencer_sfWrTrise (h13.live live) 0 vs h13.phase
  rw [h13.regs] at h4
  exact ⟨s4, run1.trans (run2.trans (run3.trans run4)), h13.trans h4⟩

/-- The rejection that touches CR1 (R138). -/
theorem runSequencer_rejection (phase : s.phase = .sfrRdCr1) :
    ∃ u, runSequencer s [v, 0, 0] = .next u ∧
      Ends s .einval [.regRead 0x00 v, .regWrite 0x00 (disableWord s.cfg v), .regWrite 0x00 v] u := by
  obtain ⟨s1, run1, h1⟩ := runSequencer_sfrRdCr1 live v [0, 0] phase
  obtain ⟨s2, run2, h2⟩ := runSequencer_sfrDisable (h1.live live) 0 [0] h1.phase
  rw [h1.regs, h1.cfg] at h2
  have h12 := h1.trans h2
  obtain ⟨s3, run3, h3⟩ := runSequencer_sfrRestore (h12.live live) 0 h12.phase
  rw [h12.regs] at h3
  exact ⟨s3, run1.trans (run2.trans run3), h12.ends h3 rfl⟩

end Phases

/-! ### SET_FREQUENCY from its port to its first phase (R131, R140) -/

/-- `u` is `s` after the waiting SET_FREQUENCY of port `r` took the lock; its first phase is the routine's or the rejection's. -/
structure Starts (s : State) (r : Nat) (hz : Word) (u : State) : Prop where
  live : u.halted = none
  cfg : u.cfg = s.cfg
  regs : u.x = { s.x with owner := r, op := 4, hz := hz, ret := .ioctl }
  phase : u.phase = if overCeiling s.cfg hz then .sfrRdCr1 else .sfRdCr1
  req : u.req = s.req.set r .running
  history : u.history = s.history ++ [Event.lockAcq r]

theorem runTurns_acquire_setFrequency {r : Nat} {hz a1 : Word} (live : s.halted = none)
    (waiting : s.slot r = .waitLock 4 hz a1) (opened : s.dev = .opened) (free : s.lock = .free) (vs : List Word) :
    ∃ u, runTurns s (s.turnFor (.acquire r) :: sequencerTurns s vs) = runSequencer u vs ∧ Starts s r hz u := by
  refine ⟨_, runTurns_acquire live r vs, ?_⟩
  rw [acquire_of_enabled (s := s.tookTurn _) waiting free opened, startWaiting, if_neg (by decide), if_pos rfl]
  exact ⟨live, rfl, rfl, rfl, rfl, rfl⟩

theorem Starts.ends {r : Nat} {hz : Word} {st : Status} (h : Starts s r hz u) (h' : Ends u st es w)
    (port : r < s.req.length) :
    w.slot r = .done st ∧ w.lock = .free ∧ w.phase = .idle ∧
      w.history = s.history ++ ([Event.lockAcq r] ++ es ++ [Event.lockRel r, Event.complete r st]) := by
  have owner : u.x.owner = r := by rw [h.regs]
  refine ⟨?_, h'.lock, h'.phase, by simp [h'.history, h.history, owner]⟩
  rw [slot_of_req_set h'.req, if_pos ⟨owner, by simpa [h.req, owner] using port⟩]

/-- A SET_FREQUENCY that the dispatcher lets wait for the lock (R131). -/
theorem exec_cmdSetFrequency_waits {hz a1 : Word} (live : s.halted = none) (shown : s.slot s.port = .submitted 4 hz a1)
    (waits : setFrequencyCase hz a1 (s.log (.dispatch s.port 4)) =
      (s.log (.dispatch s.port 4)).setSlot s.port (.waitLock 4 hz a1)) :
    ∃ t, exec (.cmdSetFrequency hz a1) s = .next t ∧ t.halted = none ∧ t.slot s.port = .waitLock 4 hz a1 ∧
      t.dev = s.dev ∧ t.lock = s.lock ∧ t.cfg = s.cfg ∧ t.history = s.history ++ [Event.dispatch s.port 4] := by
  have port : s.port < s.req.length := State.lt_of_slot (by simp [shown])
  rw [exec_cmdSetFrequency live shown, waits]
  exact ⟨_, rfl, live, State.slot_setSlot_same (s := s.log _) port _, rfl, rfl, rfl, rfl⟩

end Sys2Proof.Safety

namespace Sys2Proof.Proofs

open Sys2Proof.Machine Sys2Proof.Safety

/-- Settles O13: dispatch, acquisition, the routine and its last phase in turn; in range the words are the plain quotients. -/
theorem setFrequencyRunsToCompletion : Obligations.SetFrequencyRunsToCompletion := by
  intro s hz a1 c live shown opened free nonzero inRange
  have hp : paramsOk s.cfg = true := State.paramsOk_of_live live
  obtain ⟨t, dispatched, tlive, waiting, dev, lock, cfg, history⟩ := exec_cmdSetFrequency_waits live shown
    (setFrequencyCase_of_inRange (s := s.log _) opened nonzero inRange a1)
  obtain ⟨u, run1, started⟩ := runTurns_acquire_setFrequency tlive waiting (dev.trans opened) (lock.trans free)
    [c, 0, 0, 0, 0]
  have phase : u.phase = .sfRdCr1 := by simp [started.phase, cfg, overCeiling_eq_false.mpr inRange]
  obtain ⟨w, run2, routine⟩ := runSequencer_routine started.live c [0] phase
  have timing : computeTiming s.cfg { t.x with owner := s.port, op := 4, hz := hz, ret := .ioctl, old := c } = _ :=
    computeTiming_eq hp nonzero inRange
  rw [started.cfg, started.regs, cfg, timing] at routine
  obtain ⟨z, run3, restored⟩ := runSequencer_sfRestore (routine.live started.live) 0 routine.phase (by rw [routine.regs])
  rw [routine.regs] at restored
  have ended := routine.ends restored (by rw [started.regs])
  obtain ⟨slot, lock', idle, history'⟩ := started.ends ended (State.lt_of_slot (by simp [waiting]))
  refine ⟨t, z, dispatched, run1.trans (run2.trans run3), slot, lock', idle, ?_⟩
  simp [history', history, ccrWord_eq hp, disableWord]

/-- Settles O14: dispatch, acquisition and the three phases of the rejection in turn. -/
theorem rejectedFrequencyRestoresCr1 : Obligations.RejectedFrequencyRestoresCr1 := by
  intro s hz a1 c live shown opened free above touches
  have waits := setFrequencyCase_of_above (s := s.log (.dispatch s.port 4)) opened above a1
  rw [if_pos (by exact touches)] at waits
  obtain ⟨t, dispatched, tlive, waiting, dev, lock, cfg, history⟩ := exec_cmdSetFrequency_waits live shown waits
  obtain ⟨u, run1, started⟩ := runTurns_acquire_setFrequency tlive waiting (dev.trans opened) (lock.trans free) [c, 0, 0]
  have phase : u.phase = .sfrRdCr1 := by simp [started.phase, cfg, overCeiling_iff.mpr above]
  obtain ⟨w, run2, ended⟩ := runSequencer_rejection started.live c phase
  rw [started.cfg, cfg] at ended
  obtain ⟨slot, lock', idle, history'⟩ := started.ends ended (State.lt_of_slot (by simp [waiting]))
  refine ⟨t, w, dispatched, run1.trans run2, slot, lock', idle, ?_⟩
  simp [history', history, disableWord]

end Sys2Proof.Proofs
end

section
/-! SUPPORT. The phases of a transfer, one equation per case (41_transfer_engine.md R163 to R180): what the phase makes of the
state, the fields it leaves alone not named. -/

namespace Sys2Proof.Machine

variable {s : State} {v : Word}

/-! ### The conditions the phases test -/

theorem hasError_iff {p : Params} {sr : Word} : hasError p sr = true ↔ sr &&& errMask p ≠ 0 := bne_iff_ne

theorem txeSet_iff {p : Params} {sr : Word} : txeSet p sr = true ↔ sr &&& p.sr1Txe ≠ 0 := bne_iff_ne

theorem moreBytes_iff {x : Regs} : moreBytes x = true ↔ x.bi.toNat < x.len.toNat := by
  simp [moreBytes, BitVec.ult]

theorem moreMessages_iff {x : Regs} : moreMessages x = true ↔ (x.mi + 1).toNat < x.cnt.toNat := by
  simp [moreMessages, BitVec.ult]

/-- A word is aligned when its two low bits are 0 (R64). -/
theorem and_three_eq_zero_iff {a : Word} : a &&& 3 = 0 ↔ a.toNat % 4 = 0 := by
  rw [← BitVec.toNat_inj, BitVec.toNat_and]
  exact iff_of_eq (congrArg (· = 0) (Nat.and_two_pow_sub_one_eq_mod a.toNat 2))

/-! ### The phases with cases of their own -/

section Phases

variable (v)

theorem phaseEffect_txFetch (phase : s.phase = .txFetch) : phaseEffect v s = txFetch s := by rw [phaseEffect, phase]

theorem phaseEffect_txStartSt (phase : s.phase = .txStartSt) : phaseEffect v s = checkedStatus v .txAddr s := by
  rw [phaseEffect, phase, txStartSt]

theorem phaseEffect_txAddrSt (phase : s.phase = .txAddrSt) : phaseEffect v s = checkedStatus v .txAddrClr s := by
  rw [phaseEffect, phase, txAddrSt]

theorem phaseEffect_txData (phase : s.phase = .txData) : phaseEffect v s = txData s := by rw [phaseEffect, phase]

theorem phaseEffect_txRdByte (phase : s.phase = .txRdByte) : phaseEffect v s = txRdByte v s := by rw [phaseEffect, phase]

theorem phaseEffect_txWrPoll (phase : s.phase = .txWrPoll) : phaseEffect v s = txWrPoll v s := by rw [phaseEffect, phase]

theorem phaseEffect_txWrByte (phase : s.phase = .txWrByte) : phaseEffect v s = txWrByte s := by rw [phaseEffect, phase]

theorem phaseEffect_txNext (phase : s.phase = .txNext) : phaseEffect v s = txNext s := by rw [phaseEffect, phase]

theorem phaseEffect_txDone (phase : s.phase = .txDone) : phaseEffect v s = txDone s := by rw [phaseEffect, phase]

end Phases

/-! ### The descriptor (R163) -/

theorem txFetch_of_words {w0 w1 w2 : Word} (aligned : s.x.msgs &&& 3 = 0)
    (word0 : s.cmemWord (descriptorAddress s.x) = some w0) (word1 : s.cmemWord (descriptorAddress s.x + 4) = some w1)
    (word2 : s.cmemWord (descriptorAddress s.x + 8) = some w2) :
    txFetch s = { s with
      x := { s.x with addr := w0.extractLsb' 0 7, rd := w0.extractLsb' 16 1, len := w1, buf := w2 }
      phase := .txStart
      history := s.history ++
        [.cMemRead (descriptorAddress s.x) 4 w0, .cMemRead (descriptorAddress s.x + 4) 4 w1,
          .cMemRead (descriptorAddress s.x + 8) 4 w2] } := by
  rw [txFetch, if_neg (not_not_intro aligned)]
  simp only [word0, word1, word2]
  simp [State.log, State.setX, State.goto, loadMessage, Descriptor.ofWords]

/-- A refused fetch marks the fault, whichever of its words was refused. -/
theorem txFetch_of_refused
    (refused : s.x.msgs &&& 3 ≠ 0 ∨ s.cmemWord (descriptorAddress s.x) = none ∨
      s.cmemWord (descriptorAddress s.x + 4) = none ∨ s.cmemWord (descriptorAddress s.x + 8) = none) :
    ∃ es, txFetch s = ({ s with history := s.history ++ es } : State).raiseFault .callerMemRefused := by
  unfold txFetch
  split_ifs with misaligned
  · exact ⟨[], by simp⟩
  dsimp only
  split
  · exact ⟨[], by simp⟩
  next w0 word0 =>
  split
  · exact ⟨_, rfl⟩
  next w1 word1 =>
  split
  · exact ⟨[.cMemRead (descriptorAddress s.x) 4 w0, .cMemRead (descriptorAddress s.x + 4) 4 w1], by simp [State.log]⟩
  next w2 word2 => simp only [misaligned, word0, word1, word2, reduceCtorEq, or_self] at refused

/-! ### The address phase (R165 to R169) -/

theorem phaseEffect_txStart (v : Word) (phase : s.phase = .txStart) :
    phaseEffect v s = { s with
      phase := .txStartSt, history := s.history ++ [.regWrite 0x00 (s.cfg.cr1Start ||| s.cfg.cr1Pe)] } := by
  rw [phaseEffect, phase]
  rfl

theorem phaseEffect_txAddr (v : Word) (phase : s.phase = .txAddr) :
    phaseEffect v s = { s with
      phase := .txAddrSt, history := s.history ++ [.regWrite 0x10 (addressWord s.x.addr s.x.rd)] } := by
  rw [phaseEffect, phase]
  rfl

theorem phaseEffect_txAddrClr (v : Word) (phase : s.phase = .txAddrClr) :
    phaseEffect v s = { s with phase := .txData, history := s.history ++ [.regRead 0x18 v] } := by
  rw [phaseEffect, phase]
  rfl

theorem checkedStatus_of_error (good : Phase) (error : v &&& errMask s.cfg ≠ 0) :
    checkedStatus v good s = { s with
      x := { s.x with sr := v, err := if s.x.err = .ok then .ebus else s.x.err }
      errSr1 := v
      phase := .txStop
      history := s.history ++ [.regRead 0x14 v] } := by
  rw [checkedStatus, if_pos (hasError_iff.mpr error)]
  rfl

theorem checkedStatus_of_clean (good : Phase) (clean : v &&& errMask s.cfg = 0) :
    checkedStatus v good s = { s with
      x := { s.x with sr := v }, phase := good, history := s.history ++ [.regRead 0x14 v] } := by
  rw [checkedStatus, if_neg (mt hasError_iff.mp (not_not_intro clean))]
  rfl

/-! ### The data phase (R170) -/

theorem txData_of_read (reading : s.x.rd = 1) :
    txData s = { s with
      x := { s.x with bi := 0 }, phase := if s.x.len = 0 then .txNext else .txRdByte } := by
  rw [txData, if_pos reading]
  rfl

theorem txData_of_write (writing : s.x.rd = 0) (bytes : s.x.len ≠ 0) :
    txData s = { s with
      x := { s.x with bi := 0, irqSaved := s.irqMask, polls := 0 }
      irqMask := true
      phase := .txWrPoll
      history := s.history ++ [.maskSet] } := by
  rw [txData, if_neg (by simp [writing]), if_neg bytes]
  rfl

theorem txData_of_empty_write (writing : s.x.rd = 0) (empty : s.x.len = 0) :
    txData s = { s with
      x := { s.x with bi := 0, irqSaved := s.irqMask, polls := 0 }
      phase := .txNext
      history := s.history ++ [.maskSet, .maskRestore s.irqMask] } := by
  rw [txData, if_neg (by simp [writing]), if_pos empty]
  simp [State.maskInterrupts, State.restoreInterrupts, State.setX, State.setIrqMask, State.log, State.goto]

/-! ### The byte loops (R171 to R175) -/

theorem txRdByte_of_admitted (admitted : s.admits (byteAddress s.x).toNat 1 = true) :
    txRdByte v s = { s with
      x := { s.x with bi := s.x.bi + 1 }
      phase := if (s.x.bi + 1).toNat < s.x.len.toNat then .txRdByte else .txNext
      cmem := s.cmem.write (byteAddress s.x).toNat (v.extractLsb' 0 8)
      history := s.history ++
        [.regRead 0x10 v, .cMemWrite (byteAddress s.x) 1 (dataWord (v.extractLsb' 0 8))] } := by
  rw [txRdByte, if_pos admitted]
  simp [moreBytes_iff, State.log, State.cmemStore, State.setX, State.goto, regOffset]

theorem txRdByte_of_refused (unmarked : s.fault = none) (refused : s.admits (byteAddress s.x).toNat 1 = false) :
    txRdByte v s = { s with
      fault := some .callerMemRefused
      history := s.history ++ [.regRead 0x10 v, .fault .callerMemRefused] } := by
  rw [txRdByte, if_neg (Bool.eq_false_iff.mp refused), State.raiseFault_of_none (by exact unmarked)]
  simp [State.log, regOffset]

theorem txWrPoll_of_txe (empty : v &&& s.cfg.sr1Txe ≠ 0) :
    txWrPoll v s = { s with
      x := { s.x with sr := v, polls := s.x.polls + 1 }
      phase := .txWrByte
      history := s.history ++ [.regRead 0x14 v] } := by
  rw [txWrPoll, if_pos (txeSet_iff.mpr empty)]
  rfl

theorem txWrPoll_of_timeout (full : v &&& s.cfg.sr1Txe = 0)
    (reached : ∃ n, s.cfg.txePollLimit = some n ∧ n ≤ s.x.polls + 1) :
    txWrPoll v s = { s with
      x := { s.x with sr := v, polls := s.x.polls + 1, err := if s.x.err = .ok then .etimedout else s.x.err }
      irqMask := s.x.irqSaved
      phase := .txStop
      history := s.history ++ [.regRead 0x14 v, .maskRestore s.x.irqSaved] } := by
  rw [txWrPoll, if_neg (mt txeSet_iff.mp (not_not_intro full))]
  simp only [State.setX_x]
  rw [if_pos (Safety.pollLimitReached_iff.mpr reached)]
  simp [State.raiseTimeout_eq, State.restoreInterrupts, State.setX, State.setIrqMask, State.log, State.goto, firstError,
    regOffset]

theorem txWrPoll_of_wait (full : v &&& s.cfg.sr1Txe = 0)
    (left : ∀ n, s.cfg.txePollLimit = some n → s.x.polls + 1 < n) :
    txWrPoll v s = { s with
      x := { s.x with sr := v, polls := s.x.polls + 1 }
      phase := .txWrPoll
      history := s.history ++ [.regRead 0x14 v] } := by
  have unreached : ¬∃ n, s.cfg.txePollLimit = some n ∧ n ≤ s.x.polls + 1 := by
    rintro ⟨n, limit, reached⟩
    exact absurd (left n limit) (Nat.not_lt.mpr reached)
  rw [txWrPoll, if_neg (mt txeSet_iff.mp (not_not_intro full))]
  simp only [State.setX_x]
  rw [if_neg (mt Safety.pollLimitReached_iff.mp unreached)]
  rfl

theorem txWrByte_of_more {b : Byte} (byte : s.cmemByte (byteAddress s.x) = some b)
    (more : (s.x.bi + 1).toNat < s.x.len.toNat) :
    txWrByte s = { s with
      x := { s.x with bi := s.x.bi + 1, polls := 0 }
      phase := .txWrPoll
      history := s.history ++ [.cMemRead (byteAddress s.x) 1 (dataWord b), .regWrite 0x10 (dataWord b)] } := by
  rw [txWrByte, byte]
  dsimp only
  rw [if_pos (moreBytes_iff.mpr more)]
  simp [State.log, State.setX, State.goto, regOffset]

theorem txWrByte_of_last {b : Byte} (byte : s.cmemByte (byteAddress s.x) = some b)
    (last : s.x.len.toNat ≤ (s.x.bi + 1).toNat) :
    txWrByte s = { s with
      x := { s.x with bi := s.x.bi + 1, polls := 0 }
      irqMask := s.x.irqSaved
      phase := .txNext
      history := s.history ++
        [.cMemRead (byteAddress s.x) 1 (dataWord b), .regWrite 0x10 (dataWord b), .maskRestore s.x.irqSaved] } := by
  rw [txWrByte, byte]
  dsimp only
  rw [if_neg (mt moreBytes_iff.mp (Nat.not_lt.mpr last))]
  simp [State.restoreInterrupts, State.setIrqMask, State.log, State.setX, State.goto, regOffset]

theorem txWrByte_of_refused (unmarked : s.fault = none) (refused : s.cmemByte (byteAddress s.x) = none) :
    txWrByte s = { s with
      fault := some .callerMemRefused, history := s.history ++ [.fault .callerMemRefused] } := by
  rw [txWrByte, refused]
  exact State.raiseFault_of_none unmarked _

/-! ### The end of a message and of the transfer (R177 to R180) -/

theorem txNext_of_more (more : (s.x.mi + 1).toNat < s.x.cnt.toNat) :
    txNext s = { s with x := { s.x with mi := s.x.mi + 1 }, phase := .txFetch } := if_pos (moreMessages_iff.mpr more)

theorem txNext_of_last (last : s.x.cnt.toNat ≤ (s.x.mi + 1).toNat) : txNext s = { s with phase := .txStop } :=
  if_neg (mt moreMessages_iff.mp (Nat.not_lt.mpr last))

theorem phaseEffect_txStop (v : Word) (phase : s.phase = .txStop) :
    phaseEffect v s = { s with
      phase := .txDone, history := s.history ++ [.regWrite 0x00 (s.cfg.cr1Stop ||| s.cfg.cr1Pe)] } := by
  rw [phaseEffect, phase]
  rfl

theorem txDone_eq (s : State) :
    txDone s = { s with
      lock := .free
      phase := .idle
      req := s.req.set s.x.owner (.done s.x.err)
      history := s.history ++ [.lockRel s.x.owner, .complete s.x.owner s.x.err] } := by
  simp [txDone, State.finish_eq, State.log, State.setSlot, State.goto, State.setLock]

end Sys2Proof.Machine
end

section
/-! SUPPORT. The Transfer Engine one instruction at a time (41_transfer_engine.md R160 to R181): settles the dispatch of
EXECUTE_TRANSFER, the micro-operations of its phases and its phases without a bus access. -/

namespace Sys2Proof.Machine

variable {s : State}

/-! ### The dispatch of EXECUTE_TRANSFER (R161) -/

theorem exec_cmdExecuteTransfer {messages count : Word} (live : s.halted = none)
    (shown : s.slot s.port = .submitted 3 messages count) :
    exec (.cmdExecuteTransfer messages count) s =
      .next (transferCase messages count (s.log (.dispatch s.port 3))) :=
  dispatching_eq_next.mpr ⟨live, shown, rfl⟩

theorem transferCase_of_closed (closed : s.dev = .closed) (messages count : Word) :
    transferCase messages count s = s.complete s.port .einval := if_pos closed

theorem transferCase_of_none (opened : s.dev = .opened) (messages : Word) :
    transferCase messages 0 s = s.complete s.port .ok := by
  simp [transferCase, opened]

theorem transferCase_of_some (opened : s.dev = .opened) {count : Word} (nonzero : count ≠ 0) (messages : Word) :
    transferCase messages count s = s.setSlot s.port (.waitLock 3 messages count) := by
  rw [transferCase, if_neg (by simp [opened]), if_neg nonzero]

/-! ### The instructions of the phases -/

theorem exec_uopStatus_start (live : s.halted = none) (phase : s.phase = .txStartSt) (v : Word) :
    exec (.uopStatus v) s = .next (checkedStatus v .txAddr s) :=
  exec_of_phase live phase rfl rfl (phaseEffect_txStartSt v phase)

theorem exec_uopStatus_addr (live : s.halted = none) (phase : s.phase = .txAddrSt) (v : Word) :
    exec (.uopStatus v) s = .next (checkedStatus v .txAddrClr s) :=
  exec_of_phase live phase rfl rfl (phaseEffect_txAddrSt v phase)

/-- A phase without a bus access runs as the sequencer's step itself, stopped or not (R163, R170, R177, R180). -/
theorem sequencerStep_of_silent (silent : phaseRow s.phase = none) (v : Word) :
    sequencerStep v s = .next (phaseEffect v s) := by
  have unissued : s.regOp v = none := by simp [State.regOp, silent]
  rw [sequencerStep, unissued, silentPhase, phaseEffect]
  cases phase : s.phase with
  | idle | txFetch | txData | txNext | txDone => rfl
  | _ => simp [phase, phaseRow] at silent

/-- WDATA runs TX_WR_BYTE for the byte the buffer shows, and for any byte where the buffer shows none (R174). -/
theorem exec_uopWdata (live : s.halted = none) (phase : s.phase = .txWrByte) {b : Byte}
    (shown : (s.cmemByte (byteAddress s.x)).getD b = b) : exec (.uopWdata b) s = .next (txWrByte s) := by
  rw [exec, execUopWdata, guarded_of_live live, phase]
  exact issuing_eq_next.mpr ⟨congrArg dataWord shown.symm, rfl⟩

theorem addressWord_toNat (addr : BitVec 7) (rd : BitVec 1) : (addressWord addr rd).toNat = 2 * addr.toNat + rd.toNat := by
  rw [addressWord, BitVec.toNat_setWidth_of_le (by decide), toNat_append_eq_add, pow_one]

end Sys2Proof.Machine

namespace Sys2Proof.Proofs

open Sys2Proof.Machine Sys2Proof.Safety

/-- Settles O8, one case of the dispatch for each clause. -/
theorem transferDispatchCases : Obligations.TransferDispatchCases := by
  intro s messages count live shown
  rw [exec_cmdExecuteTransfer live shown]
  refine ⟨fun closed => ?_, fun opened zero => ?_, fun opened nonzero => ?_⟩
  · rw [transferCase_of_closed (s := s.log _) closed]
    simp [State.complete, State.log, State.setSlot]
  · rw [zero, transferCase_of_none (s := s.log _) opened]
    simp [State.complete, State.log, State.setSlot]
  · rw [transferCase_of_some (s := s.log _) opened nonzero]
    rfl

/-- Settles O23: the word of each phase is a constant of the parameters. -/
theorem startAndStopWords : Obligations.StartAndStopWords := by
  intro s live
  exact ⟨fun phase => exec_of_phase (v := 0) live phase rfl (if_pos rfl) (phaseEffect_txStart 0 phase),
    fun phase => exec_of_phase (v := 0) live phase rfl (if_pos rfl) (phaseEffect_txStop 0 phase)⟩

/-- Settles O24: the address word is the seven address bits above the direction bit. -/
theorem addressPhaseAccesses : Obligations.AddressPhaseAccesses := by
  intro s live
  refine ⟨fun phase => ⟨addressWord s.x.addr s.x.rd, addressWord_toNat _ _, ?_⟩,
    fun v phase => exec_of_phase live phase rfl rfl (phaseEffect_txAddrClr v phase)⟩
  have decodes : decodeRowValue s.cfg .addr (addressWord s.x.addr s.x.rd) = .ok (.uopAddr s.x.addr s.x.rd) := by
    rw [decodeRowValue, if_pos (addressWord_high _ _), addressWord_addr, addressWord_rd]
  exact exec_of_phase (v := 0) live phase rfl decodes (phaseEffect_txAddr 0 phase)

/-- Settles O25: both phases are the same checked status read, with a phase of their own to go on to. -/
theorem statusReadsTestTheErrorMask : Obligations.StatusReadsTestTheErrorMask := by
  rintro s v m live rfl
  refine ⟨?_, fun phase clean => ?_, fun phase clean => ?_⟩
  · rintro (phase | phase) error
    · exact (exec_uopStatus_start live phase v).trans (congrArg _ (checkedStatus_of_error _ error))
    · exact (exec_uopStatus_addr live phase v).trans (congrArg _ (checkedStatus_of_error _ error))
  · exact (exec_uopStatus_start live phase v).trans (congrArg _ (checkedStatus_of_clean _ clean))
  · exact (exec_uopStatus_addr live phase v).trans (congrArg _ (checkedStatus_of_clean _ clean))

/-- Settles O26, one case of the poll for each clause. -/
theorem pollTestsTransmitEmptyOnly : Obligations.PollTestsTransmitEmptyOnly := by
  intro s v live phase
  have polls {t : State} (effect : txWrPoll v s = t) : exec (.uopStatus v) s = .next t :=
    exec_of_phase live phase rfl rfl ((phaseEffect_txWrPoll v phase).trans effect)
  refine ⟨fun empty => polls (txWrPoll_of_txe empty), fun full reached => polls (txWrPoll_of_timeout full reached),
    fun full left => polls ?_⟩
  rw [txWrPoll_of_wait full left, phase]

/-- Settles O27: the byte read back is the one stored, and the store touches one address only. -/
theorem readByteGoesToTheBuffer : Obligations.ReadByteGoesToTheBuffer := by
  intro s v live phase wf
  have reads {t : State} (effect : txRdByte v s = t) : exec (.uopRdata v) s = .next t :=
    exec_of_phase live phase rfl rfl ((phaseEffect_txRdByte v phase).trans effect)
  refine ⟨fun admitted => ⟨_, reads (txRdByte_of_admitted admitted), Memory.read_write_same wf _ _,
    fun a other => Memory.read_write_other _ _ other, rfl⟩, fun refused => reads ?_⟩
  exact txRdByte_of_refused (State.halted_eq_none.mp live).1 refused

/-- Settles O28, one case of the byte for each clause. -/
theorem writeByteComesFromTheBuffer : Obligations.WriteByteComesFromTheBuffer := by
  intro s live phase
  refine ⟨fun b admitted shown more => ?_, fun b admitted shown last => ?_, fun b refused => ?_⟩
  · have byte : s.cmemByte (byteAddress s.x) = some b := State.cmemByte_eq_some.mpr ⟨admitted, shown⟩
    rw [exec_uopWdata live phase (by rw [byte, Option.getD_some]), txWrByte_of_more byte more]
    rfl
  · have byte : s.cmemByte (byteAddress s.x) = some b := State.cmemByte_eq_some.mpr ⟨admitted, shown⟩
    rw [exec_uopWdata live phase (by rw [byte, Option.getD_some]), txWrByte_of_last byte last]
    rfl
  · have byte : s.cmemByte (byteAddress s.x) = none := State.cmemByte_eq_none.mpr refused
    rw [exec_uopWdata live phase (by rw [byte, Option.getD_none]),
      txWrByte_of_refused (State.halted_eq_none.mp live).1 byte]

/-- Settles O29: three admitted words load the descriptor, and any refusal only marks the fault. -/
theorem fetchLoadsTheDescriptor : Obligations.FetchLoadsTheDescriptor := by
  rintro s v a phase rfl
  rw [sequencerStep_of_silent (by rw [phase]; rfl), phaseEffect_txFetch v phase, Ne, ← and_three_eq_zero_iff]
  refine ⟨fun w0 w1 w2 aligned word0 word1 word2 => ?_, fun unmarked refused => ?_⟩
  · exact congrArg _ (txFetch_of_words aligned word0 word1 word2)
  · obtain ⟨es, effect⟩ := txFetch_of_refused refused
    rw [effect, State.raiseFault_of_none (by exact unmarked)]
    exact ⟨_, rfl, rfl, rfl, phase, rfl⟩

/-- Settles O31, one case of the data phase for each clause. -/
theorem dataPhaseOpensTheLoop : Obligations.DataPhaseOpensTheLoop := by
  intro s v phase
  rw [sequencerStep_of_silent (by rw [phase]; rfl), phaseEffect_txData v phase]
  exact ⟨fun reading => congrArg _ (txData_of_read reading),
    fun writing bytes => congrArg _ (txData_of_write writing bytes),
    fun writing empty => congrArg _ (txData_of_empty_write writing empty)⟩

/-- Settles O32: one case of the next phase for each of its clauses, and the last phase. -/
theorem nextAndDonePhases : Obligations.NextAndDonePhases := by
  intro s v
  have runs {ph : Phase} {t : State} (phase : s.phase = ph) (silent : phaseRow ph = none)
      (effect : phaseEffect v s = t) : sequencerStep v s = .next t := by
    rw [sequencerStep_of_silent (by rwa [phase]), effect]
  exact ⟨fun phase more => runs phase rfl ((phaseEffect_txNext v phase).trans (txNext_of_more more)),
    fun phase last => runs phase rfl ((phaseEffect_txNext v phase).trans (txNext_of_last last)),
    fun phase => runs phase rfl ((phaseEffect_txDone v phase).trans (txDone_eq s))⟩

end Sys2Proof.Proofs
end

section
/-! SUPPORT. A run of the sequencer as the effects of its phases, one after another; settles the transfer of an empty write
message from dispatch to completion, and the transfer whose first status read shows an error (41_transfer_engine.md R182). -/

namespace Sys2Proof.Machine

variable {s t u : State} {v v' : Word} {vs ws : List Word}

/-! ### The phases do not see the turns -/

/-- `s` with the turns `ts` to come and `k` steps counted. -/
def State.atTurn (s : State) (ts : List Turn) (k : Nat) : State := { s with turns := ts, tick := k }

section Turns

variable (ts : List Turn) (k : Nat) (s : State)

@[simp] theorem State.atTurn_phase : (s.atTurn ts k).phase = s.phase := rfl
@[simp] theorem State.atTurn_x : (s.atTurn ts k).x = s.x := rfl
@[simp] theorem State.atTurn_cfg : (s.atTurn ts k).cfg = s.cfg := rfl
@[simp] theorem State.atTurn_admits (a n : Nat) : (s.atTurn ts k).admits a n = s.admits a n := rfl
@[simp] theorem State.atTurn_cmemByte (a : Word) : (s.atTurn ts k).cmemByte a = s.cmemByte a := rfl
@[simp] theorem State.atTurn_cmemWord (a : Word) : (s.atTurn ts k).cmemWord a = s.cmemWord a := rfl
@[simp] theorem anyWaiting_atTurn : anyWaiting (s.atTurn ts k) = anyWaiting s := rfl

theorem State.raiseFault_atTurn (f : Fault) : (s.atTurn ts k).raiseFault f = (s.raiseFault f).atTurn ts k := by
  cases marked : s.fault with
  | none => rw [State.raiseFault_of_none marked, State.raiseFault_of_none (by exact marked)]; rfl
  | some g => rw [State.raiseFault_of_some marked, State.raiseFault_of_some (by exact marked)]

theorem sfRestore_atTurn : sfRestore (s.atTurn ts k) = (sfRestore s).atTurn ts k := by
  rw [sfRestore, sfRestore, State.atTurn_x]
  split <;> rfl

theorem clDisable_atTurn : clDisable (s.atTurn ts k) = (clDisable s).atTurn ts k := by
  rw [clDisable, clDisable, anyWaiting_atTurn]
  split
  · exact State.raiseFault_atTurn ts k (s.regWrite .cr1 (disableWord s.cfg s.x.tmp)) _
  · rfl

theorem txFetch_atTurn : txFetch (s.atTurn ts k) = (txFetch s).atTurn ts k := by
  rw [txFetch, txFetch, State.atTurn_x]
  split
  · exact State.raiseFault_atTurn ts k s _
  simp only [State.atTurn_cmemWord]
  split
  · exact State.raiseFault_atTurn ts k s _
  split
  · exact State.raiseFault_atTurn ts k (s.log _) _
  split
  · exact State.raiseFault_atTurn ts k ((s.log _).log _) _
  · rfl

theorem checkedStatus_atTurn (v : Word) (good : Phase) :
    checkedStatus v good (s.atTurn ts k) = (checkedStatus v good s).atTurn ts k := by
  rw [checkedStatus, checkedStatus, State.atTurn_cfg]
  split <;> rfl

theorem txData_atTurn : txData (s.atTurn ts k) = (txData s).atTurn ts k := by
  rw [txData, txData, State.atTurn_x]
  split_ifs <;> rfl

theorem txRdByte_atTurn (v : Word) : txRdByte v (s.atTurn ts k) = (txRdByte v s).atTurn ts k := by
  rw [txRdByte, txRdByte, State.atTurn_x, State.atTurn_admits]
  split
  · rfl
  · exact State.raiseFault_atTurn ts k (s.regRead .dr v) _

theorem txWrPoll_atTurn (v : Word) : txWrPoll v (s.atTurn ts k) = (txWrPoll v s).atTurn ts k := by
  by_cases full : v &&& s.cfg.sr1Txe = 0
  · by_cases reached : ∃ n, s.cfg.txePollLimit = some n ∧ n ≤ s.x.polls + 1
    · rw [txWrPoll_of_timeout full reached]
      exact txWrPoll_of_timeout (s := s.atTurn ts k) full reached
    · have left : ∀ n, s.cfg.txePollLimit = some n → s.x.polls + 1 < n := by simpa using reached
      rw [txWrPoll_of_wait full left]
      exact txWrPoll_of_wait (s := s.atTurn ts k) full left
  · rw [txWrPoll_of_txe full]
    exact txWrPoll_of_txe (s := s.atTurn ts k) full

theorem txWrByte_atTurn : txWrByte (s.atTurn ts k) = (txWrByte s).atTurn ts k := by
  cases byte : s.cmemByte (byteAddress s.x) with
  | none =>
    rw [txWrByte, txWrByte, State.atTurn_x, State.atTurn_cmemByte, byte]
    exact State.raiseFault_atTurn ts k s _
  | some b =>
    rcases Nat.lt_or_ge (s.x.bi + 1).toNat s.x.len.toNat with more | last
    · rw [txWrByte_of_more byte more]
      exact txWrByte_of_more (s := s.atTurn ts k) byte more
    · rw [txWrByte_of_last byte last]
      exact txWrByte_of_last (s := s.atTurn ts k) byte last

theorem txNext_atTurn : txNext (s.atTurn ts k) = (txNext s).atTurn ts k := by
  rw [txNext, txNext, State.atTurn_x]
  split <;> rfl

/-- The phases not named here are one line of small updates. -/
theorem phaseEffect_atTurn (v : Word) : phaseEffect v (s.atTurn ts k) = (phaseEffect v s).atTurn ts k := by
  unfold phaseEffect
  rw [State.atTurn_phase]
  cases s.phase with
  | sfRestore => exact sfRestore_atTurn ts k s
  | clDisable => exact clDisable_atTurn ts k s
  | txFetch => exact txFetch_atTurn ts k s
  | txStartSt => exact checkedStatus_atTurn ts k s v .txAddr
  | txAddrSt => exact checkedStatus_atTurn ts k s v .txAddrClr
  | txData => exact txData_atTurn ts k s
  | txRdByte => exact txRdByte_atTurn ts k s v
  | txWrPoll => exact txWrPoll_atTurn ts k s v
  | txWrByte => exact txWrByte_atTurn ts k s
  | txNext => exact txNext_atTurn ts k s
  | _ => rfl

end Turns

/-! ### The effects of the phases, one after another -/

/-- The sequencer's phases lead from a state to another, the register reads answered with the words in order, and no fault
stops them on the way. -/
inductive Runs : State → List Word → State → Prop where
  | nil (s : State) : Runs s [] s
  | cons {s t u : State} {v : Word} {vs : List Word} (live : s.halted = none) (effect : phaseEffect v s = u)
      (rest : Runs u vs t) : Runs s (v :: vs) t

theorem Runs.append (h : Runs s vs t) (h' : Runs t ws u) : Runs s (vs ++ ws) u := by
  induction h with
  | nil => exact h'
  | cons live effect _ ih => exact .cons live effect (ih h')

theorem Runs.runSequencer_atTurn (h : Runs s vs t) (ts : List Turn) (k : Nat) :
    Safety.runSequencer (s.atTurn ts k) vs = .next (t.atTurn [] (k + vs.length)) := by
  induction h generalizing ts k with
  | nil => rfl
  | @cons s t u v vs live effect rest ih =>
    rw [Safety.runSequencer_cons (by exact live)]
    change Safety.runSequencer (phaseEffect v (s.atTurn _ (k + 1))) vs = _
    rw [phaseEffect_atTurn, effect, ih, List.length_cons, Nat.add_assoc, Nat.add_comm 1]

/-- What the phases lead to is where the sequencer's turns lead, but for the count of the turns. -/
theorem Runs.runSequencer (h : Runs s vs t) : Safety.runSequencer s vs = .next (t.atTurn [] (s.tick + vs.length)) :=
  h.runSequencer_atTurn s.turns s.tick

/-! ### The parts of a transfer -/

/-- The stop and the release, on every path (R179, R180). -/
theorem runs_stop (live : s.halted = none) (phase : s.phase = .txStop) :
    Runs s [v, v'] { s with
      lock := .free
      phase := .idle
      req := s.req.set s.x.owner (.done s.x.err)
      history := s.history ++
        [.regWrite 0x00 (s.cfg.cr1Stop ||| s.cfg.cr1Pe), .lockRel s.x.owner, .complete s.x.owner s.x.err] } := by
  have run := Runs.cons live (phaseEffect_txStop v phase) <|
    .cons live (.trans (phaseEffect_txDone v' rfl) (txDone_eq _)) (.nil _)
  simpa only [List.append_assoc, List.cons_append, List.nil_append] using run

/-- The start of a message, its status read showing no error (R165, R166). -/
theorem runs_start {e : Word} (live : s.halted = none) (phase : s.phase = .txStart) (clean : e &&& errMask s.cfg = 0) :
    Runs s [v, e] { s with
      x := { s.x with sr := e }
      phase := .txAddr
      history := s.history ++ [.regWrite 0x00 (s.cfg.cr1Start ||| s.cfg.cr1Pe), .regRead 0x14 e] } := by
  have run := Runs.cons live (phaseEffect_txStart v phase) <|
    .cons live (.trans (phaseEffect_txStartSt e rfl) (checkedStatus_of_clean .txAddr clean)) (.nil _)
  simpa only [List.append_assoc, List.cons_append, List.nil_append] using run

/-- The address phase of a message, its status read showing no error (R167 to R169). -/
theorem runs_address {e e' : Word} (live : s.halted = none) (phase : s.phase = .txAddr) (clean : e &&& errMask s.cfg = 0) :
    Runs s [v, e, e'] { s with
      x := { s.x with sr := e }
      phase := .txData
      history := s.history ++
        [.regWrite 0x10 (addressWord s.x.addr s.x.rd), .regRead 0x14 e, .regRead 0x18 e'] } := by
  have run := Runs.cons live (phaseEffect_txAddr v phase) <|
    .cons live (.trans (phaseEffect_txAddrSt e rfl) (checkedStatus_of_clean .txAddrClr clean)) <|
    .cons live (phaseEffect_txAddrClr e' rfl) (.nil _)
  simpa only [List.append_assoc, List.cons_append, List.nil_append] using run

/-- The data phase of the last message, an empty write message, and the end of the transfer (R170, R177 to R180). -/
theorem runs_empty_data (live : s.halted = none) (phase : s.phase = .txData) (write : s.x.rd = 0) (empty : s.x.len = 0)
    (last : s.x.cnt.toNat ≤ (s.x.mi + 1).toNat) :
    Runs s [0, 0, 0, 0] { s with
      x := { s.x with bi := 0, irqSaved := s.irqMask, polls := 0 }
      lock := .free
      phase := .idle
      req := s.req.set s.x.owner (.done s.x.err)
      history := s.history ++
        [.maskSet, .maskRestore s.irqMask,
          .regWrite 0x00 (s.cfg.cr1Stop ||| s.cfg.cr1Pe), .lockRel s.x.owner, .complete s.x.owner s.x.err] } := by
  have run := Runs.cons live (.trans (phaseEffect_txData 0 phase) (txData_of_empty_write write empty)) <|
    .cons live (.trans (phaseEffect_txNext 0 rfl) (txNext_of_last last)) (runs_stop (v := 0) (v' := 0) live rfl)
  simpa only [List.append_assoc, List.cons_append, List.nil_append] using run

section Message

variable {a w0 w1 w2 e1 e2 e3 : Word} (live : s.halted = none) (phase : s.phase = .txFetch)
  (aligned : s.x.msgs &&& 3 = 0) (address : descriptorAddress s.x = a)
  (word0 : s.cmemWord a = some w0) (word1 : s.cmemWord (a + 4) = some w1) (word2 : s.cmemWord (a + 8) = some w2)
  (clean1 : e1 &&& errMask s.cfg = 0) (clean2 : e2 &&& errMask s.cfg = 0)
include live phase aligned address word0 word1 word2 clean1 clean2

/-- A message from its descriptor to the data phase, neither status read showing an error (R163 to R169). -/
theorem runs_message :
    Runs s [0, 0, e1, 0, e2, e3] { s with
      x := { s.x with addr := w0.extractLsb' 0 7, rd := w0.extractLsb' 16 1, len := w1, buf := w2, sr := e2 }
      phase := .txData
      history := s.history ++
        [.cMemRead a 4 w0, .cMemRead (a + 4) 4 w1, .cMemRead (a + 8) 4 w2,
          .regWrite 0x00 (s.cfg.cr1Start ||| s.cfg.cr1Pe), .regRead 0x14 e1,
          .regWrite 0x10 (addressWord (w0.extractLsb' 0 7) (w0.extractLsb' 16 1)), .regRead 0x14 e2,
          .regRead 0x18 e3] } := by
  subst address
  have run := Runs.cons live (.trans (phaseEffect_txFetch 0 phase) (txFetch_of_words aligned word0 word1 word2)) <|
    .append (runs_start (v := 0) live rfl clean1) (runs_address (v := 0) (e' := e3) live rfl clean2)
  simpa only [List.append_assoc, List.cons_append, List.nil_append] using run

/-- The last message, an empty write message, from its descriptor to the release: no byte is sent (R182 (b)). -/
theorem runs_empty_write (last : s.x.cnt.toNat ≤ (s.x.mi + 1).toNat) (write : w0.extractLsb' 16 1 = 0) (empty : w1 = 0) :
    Runs s [0, 0, e1, 0, e2, e3, 0, 0, 0, 0] { s with
      x := { s.x with
        addr := w0.extractLsb' 0 7, rd := 0, len := 0, buf := w2, sr := e2
        bi := 0, irqSaved := s.irqMask, polls := 0 }
      lock := .free
      phase := .idle
      req := s.req.set s.x.owner (.done s.x.err)
      history := s.history ++
        [.cMemRead a 4 w0, .cMemRead (a + 4) 4 0, .cMemRead (a + 8) 4 w2,
          .regWrite 0x00 (s.cfg.cr1Start ||| s.cfg.cr1Pe), .regRead 0x14 e1,
          .regWrite 0x10 (addressWord (w0.extractLsb' 0 7) 0), .regRead 0x14 e2, .regRead 0x18 e3,
          .maskSet, .maskRestore s.irqMask,
          .regWrite 0x00 (s.cfg.cr1Stop ||| s.cfg.cr1Pe), .lockRel s.x.owner, .complete s.x.owner s.x.err] } := by
  have message := runs_message (e3 := e3) live phase aligned address word0 word1 word2 clean1 clean2
  rw [write, empty] at message
  have run := message.append (runs_empty_data live rfl rfl rfl last)
  simpa only [List.append_assoc, List.cons_append, List.nil_append] using run

end Message

/-- Caller memory shows a word by its bytes, the regions lent and the lock's owner alone (R62). -/
theorem State.cmemWord_congr (owner : t.x.owner = s.x.owner) (lent : t.lent = s.lent) (cmem : t.cmem = s.cmem) (a : Word) :
    t.cmemWord a = s.cmemWord a := by
  rw [State.cmemWord, State.cmemWord, State.admits, State.admits, owner, lent, cmem]

/-- The acquisition of a waiting transfer, then the sequencer's phases (R76, R162). -/
theorem Runs.runTurns_acquire {r : Nat} {messages count : Word}
    (h : Runs (transferStart messages count (s.takeLock r)) vs t) (live : s.halted = none)
    (waiting : s.slot r = .waitLock 3 messages count) (opened : s.dev = .opened) (free : s.lock = .free) :
    Safety.runTurns s (s.turnFor (.acquire r) :: Safety.sequencerTurns s vs) =
      .next (t.atTurn [] (s.tick + 1 + vs.length)) := by
  rw [Safety.runTurns_acquire live r, acquire_of_enabled (s := s.tookTurn _) waiting free opened, startWaiting, if_pos rfl]
  exact h.runSequencer_atTurn (Safety.sequencerTurns s vs) (s.tick + 1)

/-- A waiting transfer of one empty write message, from the acquisition of the lock to its release (R182 (b)). -/
theorem runTurns_empty_write {r : Nat} {messages w0 w2 e1 e2 e3 : Word} (live : s.halted = none)
    (waiting : s.slot r = .waitLock 3 messages 1) (opened : s.dev = .opened) (free : s.lock = .free)
    (aligned : messages &&& 3 = 0)
    (word0 : (s.setX { s.x with owner := r }).cmemWord messages = some w0)
    (word1 : (s.setX { s.x with owner := r }).cmemWord (messages + 4) = some 0)
    (word2 : (s.setX { s.x with owner := r }).cmemWord (messages + 8) = some w2) (write : w0.extractLsb' 16 1 = 0)
    (clean1 : e1 &&& errMask s.cfg = 0) (clean2 : e2 &&& errMask s.cfg = 0) :
    ∃ u : State,
      Safety.runTurns s (s.turnFor (.acquire r) :: Safety.sequencerTurns s [0, 0, e1, 0, e2, e3, 0, 0, 0, 0]) = .next u ∧
      u.slot r = .done .ok ∧ u.lock = .free ∧ u.phase = .idle ∧ u.irqMask = s.irqMask ∧
      u.history = s.history ++
        [Event.lockAcq r, .cMemRead messages 4 w0, .cMemRead (messages + 4) 4 0, .cMemRead (messages + 8) 4 w2,
          .regWrite 0x00 (s.cfg.cr1Start ||| s.cfg.cr1Pe), .regRead 0x14 e1,
          .regWrite 0x10 (addressWord (w0.extractLsb' 0 7) 0), .regRead 0x14 e2, .regRead 0x18 e3,
          .maskSet, .maskRestore s.irqMask,
          .regWrite 0x00 (s.cfg.cr1Stop ||| s.cfg.cr1Pe), .lockRel r, .complete r .ok] := by
  have words (a : Word) : (transferStart messages 1 (s.takeLock r)).cmemWord a =
      (s.setX { s.x with owner := r }).cmemWord a := by
    apply State.cmemWord_congr <;> simp [transferStart, State.takeLock_eq]
  have run := runs_empty_write (s := transferStart messages 1 (s.takeLock r)) (e3 := e3) live rfl aligned
    (by simp [descriptorAddress, transferStart]) ((words _).trans word0) ((words _).trans word1) ((words _).trans word2)
    clean1 clean2 (by simp [transferStart]) write rfl
  have port : r < s.req.length := State.lt_of_slot (by simp [waiting])
  refine ⟨_, run.runTurns_acquire live waiting opened free, ?_, rfl, rfl, ?_, ?_⟩
  · simp [State.slot, State.atTurn, transferStart, State.takeLock_eq, port]
  · simp [State.atTurn, transferStart, State.takeLock_eq]
  · simp [State.atTurn, transferStart, State.takeLock_eq]

end Sys2Proof.Machine

namespace Sys2Proof.Proofs

open Sys2Proof.Machine Sys2Proof.Safety

/-- Settles O15: the dispatcher lets the transfer wait, and from the acquisition on it runs as one empty write message. -/
theorem zeroLengthWriteRunsToCompletion : Obligations.ZeroLengthWriteRunsToCompletion := by
  intro s messages w0 w2 e1 e2 e3 live shown opened free unmasked aligned word0 write word1 word2 clean1 clean2
  have port : s.port < s.req.length := State.lt_of_slot (by simp [shown])
  have dispatched := exec_cmdExecuteTransfer live shown
  rw [transferCase_of_some (s := s.log _) opened (by decide), State.log_port] at dispatched
  obtain ⟨u, run, slot, lock, phase, mask, history⟩ := runTurns_empty_write (e3 := e3)
    (s := (s.log (.dispatch s.port 3)).setSlot s.port (.waitLock 3 messages 1)) live
    (State.slot_setSlot_same (s := s.log _) port _) opened free aligned word0 word1 word2 write clean1 clean2
  refine ⟨_, u, dispatched, run, slot, lock, phase, mask.trans unmasked, ?_⟩
  simpa [unmasked] using history

/-- Settles O16: the error sends control from the first status read to the stop. -/
theorem errorAfterStartStopsWithEbus : Obligations.ErrorAfterStartStopsWithEbus := by
  intro s e live phase first port error
  have run := Runs.cons live (phaseEffect_txStart 0 phase) <|
    .cons live (.trans (phaseEffect_txStartSt e rfl) (checkedStatus_of_error .txAddr error)) <|
    runs_stop (v := 0) (v' := 0) live rfl
  refine ⟨_, run.runSequencer, ?_, rfl, rfl, rfl, ?_, ?_⟩
  · simp [State.slot, State.atTurn, first, port]
  · simp only [State.atTurn]
  · simp [State.atTurn, first]

end Sys2Proof.Proofs
end

section
/-! SUPPORT. The byte loops of a transfer, for a message of any length; settles the read loop and the write loop
(41_transfer_engine.md R171 to R176). -/

namespace Sys2Proof.Machine

variable {s : State} {a v : Word} {vs : List Word}

/-! ### The bytes of a buffer -/

theorem add_ofNat_succ (a : Word) (j : Nat) : a + BitVec.ofNat 32 (j + 1) = a + 1 + BitVec.ofNat 32 j := by
  rw [Nat.add_comm, BitVec.ofNat_add, ← BitVec.add_assoc]
  rfl

/-- A byte index below the length counts on without a wrap (R176). -/
theorem toNat_succ_of_lt {i n : Word} (below : i.toNat < n.toNat) : (i + 1).toNat = i.toNat + 1 := by
  bv_omega

/-- Caller memory admits an access of each of the `n` bytes from `a` on, modulo 2^32 (R62, R63). -/
def State.admitsBytes (s : State) (a : Word) (n : Nat) : Prop :=
  ∀ j, j < n → s.admits (a + BitVec.ofNat 32 j).toNat 1 = true

theorem State.admitsBytes_succ {n : Nat} :
    s.admitsBytes a (n + 1) ↔ s.admits a.toNat 1 = true ∧ s.admitsBytes (a + 1) n := by
  unfold State.admitsBytes
  rw [Nat.forall_lt_succ_left]
  simp only [add_ofNat_succ, BitVec.add_zero]

/-- The low bytes of `vs` stored from `a` on, modulo 2^32 (R171). -/
def Memory.fill : Memory → Word → List Word → Memory
  | m, _, [] => m
  | m, a, v :: vs => (m.write a.toNat (v.extractLsb' 0 8)).fill (a + 1) vs

theorem Memory.read_fill_other (m : Memory) {b : Nat}
    (other : ∀ j, j < vs.length → b ≠ (a + BitVec.ofNat 32 j).toNat) : (m.fill a vs).read b = m.read b := by
  induction vs generalizing m a with
  | nil => rfl
  | cons v vs ih =>
    rw [List.length_cons, Nat.forall_lt_succ_left] at other
    obtain ⟨here, further⟩ := other
    simp only [add_ofNat_succ] at further
    rw [Memory.fill, ih _ further]
    exact Memory.read_write_other m _ (by simpa using here)

/-- Each byte reads back, as long as the addresses do not wrap round to the first (R63). -/
theorem Memory.read_fill {m : Memory} (wf : m.wf = true) (short : vs.length ≤ 2 ^ 32) {j : Nat} (hj : j < vs.length) :
    (m.fill a vs).read (a + BitVec.ofNat 32 j).toNat = (vs.getD j 0).extractLsb' 0 8 := by
  induction vs generalizing m a j with
  | nil => cases hj
  | cons v vs ih =>
    rw [List.length_cons] at short hj
    cases j with
    | zero =>
      rw [Memory.fill, BitVec.add_zero, Memory.read_fill_other]
      · exact Memory.read_write_same wf _ _
      · intro j hj
        bv_omega
    | succ j =>
      rw [Memory.fill, add_ofNat_succ, ih (Memory.wf_write wf _ _) (by omega) (by omega)]
      rfl

/-! ### The events of a loop -/

/-- The events of a byte loop: those that `f` gives to each answer and the address of its byte. -/
def perByte (f : Word → Word → List Event) (a : Word) (vs : List Word) : List Event :=
  vs.zipIdx.flatMap fun p => f p.1 (a + BitVec.ofNat 32 p.2)

@[simp] theorem perByte_nil (f : Word → Word → List Event) (a : Word) : perByte f a [] = [] := rfl

@[simp] theorem perByte_cons (f : Word → Word → List Event) (a v : Word) (vs : List Word) :
    perByte f a (v :: vs) = f v a ++ perByte f (a + 1) vs := by
  simp only [perByte, List.zipIdx_cons, List.flatMap_cons, BitVec.add_zero]
  rw [List.zipIdx_succ, List.flatMap_map]
  simp only [add_ofNat_succ]

/-- A byte read from DR and stored at `a` (R171). -/
def readEvents (v a : Word) : List Event := [.regRead 0x10 v, .cMemWrite a 1 (dataWord (v.extractLsb' 0 8))]

/-- A poll that finds transmit-empty, and the byte of `m` at `a` sent (R172, R174). -/
def sendEvents (m : Memory) (v a : Word) : List Event :=
  [.regRead 0x14 v, .cMemRead a 1 (dataWord (m.read a.toNat)), .regWrite 0x10 (dataWord (m.read a.toNat))]

/-! ### The read loop (R171) -/

/-- The read loop from any of its bytes on, the end of the loop included. -/
theorem runs_read (live : s.halted = none)
    (loop : s.phase = if s.x.bi.toNat < s.x.len.toNat then .txRdByte else .txNext)
    (rest : s.x.bi.toNat + vs.length = s.x.len.toNat) (admitted : s.admitsBytes (s.x.buf + s.x.bi) vs.length) :
    Runs s vs { s with
      x := { s.x with bi := s.x.len }
      phase := .txNext
      cmem := s.cmem.fill (s.x.buf + s.x.bi) vs
      history := s.history ++ perByte readEvents (s.x.buf + s.x.bi) vs } := by
  induction vs generalizing s with
  | nil =>
    have done : s.x.bi = s.x.len := BitVec.eq_of_toNat_eq rest
    rw [if_neg (by simp [done])] at loop
    rw [← loop, ← done, Memory.fill, perByte_nil, List.append_nil]
    exact .nil s
  | cons v vs ih =>
    rw [List.length_cons] at rest admitted
    have below : s.x.bi.toNat < s.x.len.toNat := by omega
    have rest' : (s.x.bi + 1).toNat + vs.length = s.x.len.toNat := by rw [toNat_succ_of_lt below]; omega
    obtain ⟨here, further⟩ := State.admitsBytes_succ.mp admitted
    rw [BitVec.add_assoc] at further
    rw [if_pos below] at loop
    have run := Runs.cons live (.trans (phaseEffect_txRdByte v loop) (txRdByte_of_admitted here))
      (ih live rfl rest' further)
    simpa only [Memory.fill, perByte_cons, readEvents, List.append_assoc, byteAddress, BitVec.add_assoc] using run

/-! ### The write loop (R172 to R175) -/

section WriteRound

variable (live : s.halted = none) (phase : s.phase = .txWrPoll) (empty : v &&& s.cfg.sr1Txe ≠ 0)
  (admitted : s.admits (s.x.buf + s.x.bi).toNat 1 = true)
include live phase empty admitted

/-- A poll and a byte that is not the last. -/
theorem runs_send_more (more : (s.x.bi + 1).toNat < s.x.len.toNat) :
    Runs s [v, 0] { s with
      x := { s.x with bi := s.x.bi + 1, sr := v, polls := 0 }
      phase := .txWrPoll
      history := s.history ++ sendEvents s.cmem v (s.x.buf + s.x.bi) } := by
  have run := Runs.cons live (.trans (phaseEffect_txWrPoll v phase) (txWrPoll_of_txe empty)) <|
    .cons live (.trans (phaseEffect_txWrByte 0 rfl)
      (txWrByte_of_more (State.cmemByte_eq_some.mpr ⟨admitted, rfl⟩) more)) (.nil _)
  simpa only [sendEvents, byteAddress, List.append_assoc, List.cons_append, List.nil_append] using run

/-- A poll and the last byte. -/
theorem runs_send_last (last : s.x.len.toNat ≤ (s.x.bi + 1).toNat) :
    Runs s [v, 0] { s with
      x := { s.x with bi := s.x.bi + 1, sr := v, polls := 0 }
      irqMask := s.x.irqSaved
      phase := .txNext
      history := s.history ++ sendEvents s.cmem v (s.x.buf + s.x.bi) ++ [.maskRestore s.x.irqSaved] } := by
  have run := Runs.cons live (.trans (phaseEffect_txWrPoll v phase) (txWrPoll_of_txe empty)) <|
    .cons live (.trans (phaseEffect_txWrByte 0 rfl)
      (txWrByte_of_last (State.cmemByte_eq_some.mpr ⟨admitted, rfl⟩) last)) (.nil _)
  simpa only [sendEvents, byteAddress, List.append_assoc, List.cons_append, List.nil_append] using run

end WriteRound

/-- The write loop from any of its bytes on, every poll finding transmit-empty. -/
theorem runs_send (live : s.halted = none) (phase : s.phase = .txWrPoll)
    (rest : s.x.bi.toNat + (v :: vs).length = s.x.len.toNat) (empty : ∀ w ∈ v :: vs, w &&& s.cfg.sr1Txe ≠ 0)
    (admitted : s.admitsBytes (s.x.buf + s.x.bi) (v :: vs).length) :
    Runs s ((v :: vs).flatMap fun w => [w, 0]) { s with
      x := { s.x with bi := s.x.len, sr := vs.getLastD v, polls := 0 }
      irqMask := s.x.irqSaved
      phase := .txNext
      history := s.history ++ perByte (sendEvents s.cmem) (s.x.buf + s.x.bi) (v :: vs) ++
        [.maskRestore s.x.irqSaved] } := by
  induction vs generalizing s v with
  | nil =>
    rw [List.length_singleton] at rest
    have done : s.x.bi + 1 = s.x.len := by bv_omega
    have run := runs_send_last live phase (empty v (by simp)) (State.admitsBytes_succ.mp admitted).1 (by rw [done])
    rw [done] at run
    rw [perByte_cons, perByte_nil, List.append_nil]
    exact run
  | cons w vs ih =>
    rw [List.length_cons] at rest admitted
    have rest' : (s.x.bi + 1).toNat + (w :: vs).length = s.x.len.toNat := by
      rw [toNat_succ_of_lt (n := s.x.len) (by omega)]; omega
    obtain ⟨here, further⟩ := State.admitsBytes_succ.mp admitted
    rw [BitVec.add_assoc] at further
    obtain ⟨emptyHere, emptyFurther⟩ := List.forall_mem_cons.mp empty
    have more : (s.x.bi + 1).toNat < s.x.len.toNat := by rw [List.length_cons] at rest'; omega
    have run := (runs_send_more live phase emptyHere here more).append (ih live rfl rest' emptyFurther further)
    simpa only [List.flatMap_cons, perByte_cons, List.getLastD_cons, List.append_assoc, BitVec.add_assoc] using run

end Sys2Proof.Machine

namespace Sys2Proof.Proofs

open Sys2Proof.Machine Sys2Proof.Safety

/-- Settles O56, by induction on the bytes still to come: the buffer is filled from its current byte on. -/
theorem readLoopFillsTheBuffer : Obligations.ReadLoopFillsTheBuffer := by
  intro s vs live phase wf below count admitted
  have run := runs_read live (by rw [phase, if_pos below]) (by omega) admitted
  have short : vs.length ≤ 2 ^ 32 := by have := s.x.len.isLt; omega
  exact ⟨_, run.runSequencer, rfl, rfl, fun j hj => Memory.read_fill wf short hj,
    fun a other => Memory.read_fill_other s.cmem other, rfl⟩

/-- Settles O57, by induction on the bytes still to come: only the last byte leaves the loop. -/
theorem writeLoopSendsTheBuffer : Obligations.WriteLoopSendsTheBuffer := by
  intro s vs live phase below count empty admitted
  cases vs with
  | nil => rw [List.length_nil] at count; omega
  | cons v vs =>
    have run := runs_send live phase (by omega) empty admitted
    exact ⟨_, run.runSequencer, rfl, rfl, rfl, rfl, rfl⟩

end Sys2Proof.Proofs
end

section
/-! SUPPORT. The wait for transmit-empty: settles that it never ends without a bound and times out with one
(41_transfer_engine.md R172, R173, 70_reset_and_hazards.md R282). -/

namespace Sys2Proof.Machine

variable {s : State} {vs : List Word}

/-- Polls that do not find transmit-empty and leave the bound unreached: the phase stays, only SR1 is read (R172). -/
theorem runs_wait (live : s.halted = none) (phase : s.phase = .txWrPoll) (full : ∀ v ∈ vs, v &&& s.cfg.sr1Txe = 0)
    (left : ∀ n, s.cfg.txePollLimit = some n → s.x.polls + vs.length < n) :
    Runs s vs { s with
      x := { s.x with sr := vs.getLastD s.x.sr, polls := s.x.polls + vs.length }
      phase := .txWrPoll
      history := s.history ++ vs.map (Event.regRead 0x14) } := by
  induction vs generalizing s with
  | nil =>
    rw [← phase, List.map_nil, List.append_nil]
    exact .nil s
  | cons v vs ih =>
    obtain ⟨fullHere, fullFurther⟩ := List.forall_mem_cons.mp full
    have shift : s.x.polls + 1 + vs.length = s.x.polls + (v :: vs).length := by rw [List.length_cons]; omega
    have leftHere (n : Nat) (limit : s.cfg.txePollLimit = some n) : s.x.polls + 1 < n := by
      have := left n limit
      omega
    have run := Runs.cons live (.trans (phaseEffect_txWrPoll v phase) (txWrPoll_of_wait fullHere leftHere))
      (ih live rfl fullFurther (by rwa [shift]))
    simpa only [shift, List.map_cons, List.getLastD_cons, List.append_assoc, List.singleton_append] using run

end Sys2Proof.Machine

namespace Sys2Proof.Proofs

open Sys2Proof.Machine Sys2Proof.Safety

/-- Settles O58: without a bound every poll leaves the bound unreached. -/
theorem unboundedWaitNeverEnds : Obligations.UnboundedWaitNeverEnds := by
  intro s vs live phase unbounded full
  have run := runs_wait live phase full (by simp [unbounded])
  exact ⟨_, run.runSequencer, rfl, rfl, rfl, rfl, rfl, rfl, rfl⟩

/-- Settles O59: all polls but the last are a wait, and the last reaches the bound. -/
theorem boundedWaitTimesOut : Obligations.BoundedWaitTimesOut := by
  intro s vs n live phase limit polls count unraised full
  obtain rfl | ⟨ws, v, rfl⟩ := List.eq_nil_or_concat vs
  · rw [List.length_nil] at count
    omega
  rw [List.concat_eq_append] at full count ⊢
  rw [List.length_append, List.length_singleton] at count
  have bound (k : Nat) (h : s.cfg.txePollLimit = some k) : s.x.polls + ws.length < k := by
    obtain rfl : n = k := Option.some.inj (limit.symm.trans h)
    omega
  have waited := runs_wait live phase (fun w hw => full w (by simp [hw])) bound
  have reached : n ≤ s.x.polls + ws.length + 1 := by omega
  have run := waited.append <| .cons live (.trans (phaseEffect_txWrPoll v rfl)
    (txWrPoll_of_timeout (full v (by simp)) ⟨n, limit, reached⟩)) (.nil _)
  exact ⟨_, run.runSequencer, rfl, if_pos unraised, rfl, rfl, by simp [State.atTurn]⟩

end Sys2Proof.Proofs
end

section
/-! SUPPORT. The Device-Facing Surface one instruction at a time (42_device_surface.md R200 to R212): settles the dispatch of OPEN,
CLOSE and the unrecognised commands, the micro-operations of the phases of OPEN and CLOSE, that a dispatch step runs the command
decoded from the port, and the frame of the five commands. -/

namespace Sys2Proof.Machine

variable {s t : State}

/-! ### An event, then a completion or a fault -/

/-- A completion right after the event `e` (R15). -/
theorem State.complete_log (s : State) (e : Event) (r : Nat) (st : Status) :
    (s.log e).complete r st =
      { s with req := s.req.set r (.done st), history := s.history ++ [e, .complete r st] } := by
  simp [State.complete, State.log, State.setSlot]

/-- A fault right after the event `e` (R245). -/
theorem State.raiseFault_log (unmarked : s.fault = none) (e : Event) (f : Fault) :
    (s.log e).raiseFault f = { s with fault := some f, history := s.history ++ [e, .fault f] } := by
  rw [State.raiseFault_of_none (by exact unmarked)]
  simp [State.log]

/-! ### Who waits for the lock (R209, R211) -/

theorem anyWaiting_eq_false : anyWaiting s = false ↔ ∀ q code a0 a1, s.slot q ≠ .waitLock code a0 a1 := by
  rw [← Bool.not_eq_true, anyWaiting_iff]
  simp

/-- A port that shows a command does not wait, so whoever waits is another. -/
theorem anyWaiting_iff_other {r : Nat} {code a0 a1 : Word} (shown : s.slot r = .submitted code a0 a1) :
    anyWaiting s = true ↔ ∃ q c b0 b1, q ≠ r ∧ s.slot q = .waitLock c b0 b1 := by
  rw [anyWaiting_iff]
  constructor
  · rintro ⟨q, c, b0, b1, waiting⟩
    refine ⟨q, c, b0, b1, ?_, waiting⟩
    rintro rfl
    simp [shown] at waiting
  · rintro ⟨q, c, b0, b1, -, waiting⟩
    exact ⟨q, c, b0, b1, waiting⟩

theorem anyWaiting_of_req_set {r : Nat} {v : Slot} (alone : anyWaiting s = false) (waits : v.isWaiting = false)
    (req : t.req = s.req.set r v) : anyWaiting t = false := by
  rw [anyWaiting, req, List.any_eq_false]
  intro shown mem
  obtain old | rfl := List.mem_or_eq_of_mem_set mem
  · exact List.any_eq_false.mp alone shown old
  · simp [waits]

/-! ### The dispatch of OPEN (R204) -/

theorem exec_cmdOpen {a0 a1 : Word} (live : s.halted = none) (shown : s.slot s.port = .submitted 1 a0 a1) :
    exec (.cmdOpen a0 a1) s = .next (openCase (s.log (.dispatch s.port 1))) :=
  dispatching_eq_next.mpr ⟨live, shown, rfl⟩

theorem openCase_of_detached (detached : s.cfg.cfgAttached = false) : openCase s = s.complete s.port .einval :=
  if_pos detached

theorem openCase_of_opened (attached : s.cfg.cfgAttached = true) (opened : s.dev = .opened) :
    openCase s = s.complete s.port .einval := by
  rw [openCase, if_neg (by simp [attached]), if_pos opened]

theorem openCase_of_no_memory (attached : s.cfg.cfgAttached = true) (closed : s.dev = .closed)
    (refused : s.allocOk = false) : openCase s = s.complete s.port .enomem := by
  rw [openCase, if_neg (by simp [attached]), if_neg (by simp [closed]), if_pos refused]

theorem openCase_of_accepted (attached : s.cfg.cfgAttached = true) (closed : s.dev = .closed)
    (granted : s.allocOk = true) :
    openCase s = { s with
      dev := .opened
      sig := 0
      lock := .held s.port
      x := { s.x with owner := s.port, op := 1 }
      req := s.req.set s.port .running
      phase := .opWrCr2
      history := s.history ++ [.lockAcq s.port] } := by
  rw [openCase, if_neg (by simp [attached]), if_neg (by simp [closed]), if_neg (by simp [granted])]
  rfl

/-- An accepted OPEN, from its port to its first phase. -/
theorem exec_cmdOpen_accepted {a0 a1 : Word} (live : s.halted = none) (shown : s.slot s.port = .submitted 1 a0 a1)
    (attached : s.cfg.cfgAttached = true) (closed : s.dev = .closed) (granted : s.allocOk = true) :
    exec (.cmdOpen a0 a1) s = .next { s with
      dev := .opened
      sig := 0
      lock := .held s.port
      x := { s.x with owner := s.port, op := 1 }
      req := s.req.set s.port .running
      phase := .opWrCr2
      history := s.history ++ [.dispatch s.port 1, .lockAcq s.port] } := by
  rw [exec_cmdOpen live shown, openCase_of_accepted (s := s.log _) attached closed granted]
  simp [State.log]

/-! ### The dispatch of CLOSE (R209) -/

theorem exec_cmdClose {a0 a1 : Word} (live : s.halted = none) (shown : s.slot s.port = .submitted 2 a0 a1) :
    exec (.cmdClose a0 a1) s = .next (closeCase (s.log (.dispatch s.port 2))) :=
  dispatching_eq_next.mpr ⟨live, shown, rfl⟩

theorem closeCase_of_closed (closed : s.dev = .closed) : closeCase s = s.complete s.port .einval := if_pos closed

theorem closeCase_of_busy (opened : s.dev = .opened) (busy : s.lock ≠ .free ∨ anyWaiting s = true) :
    closeCase s = s.raiseFault .closeWhileBusy := by
  rw [closeCase, if_neg (by simp [opened]), if_pos busy]

theorem closeCase_of_accepted (opened : s.dev = .opened) (free : s.lock = .free) (alone : anyWaiting s = false) :
    closeCase s = { s with
      lock := .held s.port
      x := { s.x with owner := s.port, op := 2 }
      req := s.req.set s.port .running
      phase := .clRdCr1
      history := s.history ++ [.lockAcq s.port] } := by
  rw [closeCase, if_neg (by simp [opened]), if_neg (by simp [free, alone])]
  rfl

/-- An accepted CLOSE, from its port to its first phase. -/
theorem exec_cmdClose_accepted {a0 a1 : Word} (live : s.halted = none) (shown : s.slot s.port = .submitted 2 a0 a1)
    (opened : s.dev = .opened) (free : s.lock = .free) (alone : anyWaiting s = false) :
    exec (.cmdClose a0 a1) s = .next { s with
      lock := .held s.port
      x := { s.x with owner := s.port, op := 2 }
      req := s.req.set s.port .running
      phase := .clRdCr1
      history := s.history ++ [.dispatch s.port 2, .lockAcq s.port] } := by
  rw [exec_cmdClose live shown, closeCase_of_accepted (s := s.log _) opened free alone]
  simp [State.log]

/-! ### The dispatch of any other command (R104, R212) -/

theorem isCommandCode_eq_false {code : Word} :
    isCommandCode code = false ↔ code ≠ 1 ∧ code ≠ 2 ∧ code ≠ 3 ∧ code ≠ 4 := by
  simp [isCommandCode, and_assoc]

theorem exec_cmdUnrecognised {code : Word} (unrecognised : isCommandCode code = false) (a0 a1 : Word) (s : State) :
    exec (.cmdUnrecognised code a0 a1) s = dispatching s code a0 a1 fun t => t.complete t.port .einval :=
  if_neg (Bool.eq_false_iff.mp unrecognised)

/-! ### The phases of OPEN and CLOSE (R205 to R211) -/

theorem phaseEffect_opWrCr2 (v : Word) (phase : s.phase = .opWrCr2) :
    phaseEffect v s = { s with
      x := { s.x with hz := s.cfg.stdMaxHz, ret := .opening }
      phase := .sfRdCr1
      history := s.history ++ [.regWrite 0x04 s.cfg.cr2InitWord] } := by
  rw [phaseEffect, phase]
  rfl

theorem phaseEffect_opRdCr1 (v : Word) (phase : s.phase = .opRdCr1) :
    phaseEffect v s = { s with
      x := { s.x with tmp := v }, phase := .opEnable, history := s.history ++ [.regRead 0x00 v] } := by
  rw [phaseEffect, phase]
  rfl

theorem phaseEffect_opEnable (v : Word) (phase : s.phase = .opEnable) :
    phaseEffect v s = { s with
      lock := .free
      phase := .idle
      req := s.req.set s.x.owner (.done .ok)
      history := s.history ++
        [.regWrite 0x00 (s.x.tmp ||| s.cfg.cr1Pe), .lockRel s.x.owner, .complete s.x.owner .ok] } := by
  rw [phaseEffect, phase]
  exact s.finish_log _ _

theorem phaseEffect_clRdCr1 (v : Word) (phase : s.phase = .clRdCr1) :
    phaseEffect v s = { s with
      x := { s.x with tmp := v }, phase := .clDisable, history := s.history ++ [.regRead 0x00 v] } := by
  rw [phaseEffect, phase]
  rfl

theorem phaseEffect_clDisable (v : Word) (phase : s.phase = .clDisable) : phaseEffect v s = clDisable s := by
  rw [phaseEffect, phase]

theorem phaseEffect_clDisable_alone (v : Word) (phase : s.phase = .clDisable) (alone : anyWaiting s = false) :
    phaseEffect v s = { s with
      dev := .closed
      lock := .free
      phase := .idle
      req := s.req.set s.x.owner (.done .ok)
      history := s.history ++
        [.regWrite 0x00 (s.x.tmp &&& ~~~s.cfg.cr1Pe), .lockRel s.x.owner, .complete s.x.owner .ok] } := by
  refine (phaseEffect_clDisable v phase).trans <| (if_neg (Bool.eq_false_iff.mp alone)).trans ?_
  exact (s.setDev .closed).finish_log _ _

theorem phaseEffect_clDisable_waiting (v : Word) (phase : s.phase = .clDisable) (unmarked : s.fault = none)
    (waiting : anyWaiting s = true) :
    phaseEffect v s = { s with
      fault := some .closeWhileBusy
      history := s.history ++ [.regWrite 0x00 (s.x.tmp &&& ~~~s.cfg.cr1Pe), .fault .closeWhileBusy] } :=
  (phaseEffect_clDisable v phase).trans <| (if_pos waiting).trans (State.raiseFault_log unmarked _ _)

/-- CR1_DISABLE of the word `w`, in a phase that clears the enable bit of `w` (R112 (c), R114). -/
theorem exec_uopCr1Disable {ph : Phase} {w : Word} (live : s.halted = none) (phase : s.phase = ph)
    (issues : phaseRow ph = some .cr1Disable) (word : s.busValue .cr1Disable 0 = disableWord s.cfg w)
    (effect : phaseEffect 0 s = t) : exec (.uopCr1Disable (disableWord s.cfg w)) s = .next t :=
  exec_of_phase live phase issues (by rw [word]; exact if_pos (disableWord_and_pe _ _)) effect

/-! ### The frame of a command -/

/-- `t` is what a command at dispatch may make of `s`: of the ports only the dispatcher's is written, of the working registers
only OWNER and OP. -/
structure CommandFrame (s t : State) : Prop where
  cmem : t.cmem = s.cmem
  lent : t.lent = s.lent
  cfg : t.cfg = s.cfg
  evtEn : t.evtEn = s.evtEn
  errEn : t.errEn = s.errEn
  irqMask : t.irqMask = s.irqMask
  errSr1 : t.errSr1 = s.errSr1
  evtLine : t.evtLine = s.evtLine
  errLine : t.errLine = s.errLine
  allocOk : t.allocOk = s.allocOk
  port : t.port = s.port
  turns : t.turns = s.turns
  tick : t.tick = s.tick
  slots : ∀ q, q ≠ s.port → t.slot q = s.slot q
  regs : t.x = { s.x with owner := t.x.owner, op := t.x.op }

namespace CommandFrame

theorem refl (s : State) : CommandFrame s s := by
  constructor <;> intros <;> rfl

theorem log (h : CommandFrame s t) (e : Event) : CommandFrame s (t.log e) := { h with }

theorem setSlot (h : CommandFrame s t) (v : Slot) : CommandFrame s (t.setSlot t.port v) :=
  { h with
    slots := fun q other => by
      have ne : t.port ≠ q := fun e => other (e.symm.trans h.port)
      rw [State.slot_setSlot_other ne, h.slots q other] }

theorem complete (h : CommandFrame s t) (st : Status) : CommandFrame s (t.complete t.port st) :=
  (h.setSlot _).log _

theorem raiseFault (h : CommandFrame s t) (f : Fault) : CommandFrame s (t.raiseFault f) := by
  cases marked : t.fault with
  | none => rw [State.raiseFault_of_none marked]; exact { h with }
  | some g => rwa [State.raiseFault_of_some marked]

/-- The lock taken for the dispatcher's port, and the command's code in OP. -/
theorem start (h : CommandFrame s t) (code : Word) (ph : Phase) :
    CommandFrame s (((t.takeLock t.port).setX { (t.takeLock t.port).x with op := code }).goto ph) :=
  { h.setSlot .running with
    regs := congrArg (fun x : Regs => { x with owner := t.port, op := code }) h.regs }

end CommandFrame

theorem openCase_frame (s : State) : CommandFrame s (openCase s) := by
  have opened : CommandFrame s { s with dev := .opened, sig := 0 } := { CommandFrame.refl s with }
  unfold openCase
  split_ifs
  · exact .complete (.refl s) _
  · exact .complete (.refl s) _
  · exact .complete (.refl s) _
  · exact opened.start 1 .opWrCr2

theorem closeCase_frame (s : State) : CommandFrame s (closeCase s) := by
  unfold closeCase
  split_ifs
  · exact .complete (.refl s) _
  · exact .raiseFault (.refl s) _
  · exact .start (.refl s) 2 .clRdCr1

theorem transferCase_frame (messages count : Word) (s : State) : CommandFrame s (transferCase messages count s) := by
  unfold transferCase
  split_ifs
  · exact .complete (.refl s) _
  · exact .complete (.refl s) _
  · exact .setSlot (.refl s) _

theorem setFrequencyCase_frame (hz a1 : Word) (s : State) : CommandFrame s (setFrequencyCase hz a1 s) := by
  unfold setFrequencyCase
  split_ifs
  · exact .complete (.refl s) _
  · exact .setSlot (.refl s) _
  · exact .complete (.refl s) _
  · exact .raiseFault (.refl s) _
  · exact .setSlot (.refl s) _

theorem commandEffect_frame (code a0 a1 : Word) (s : State) : CommandFrame s (commandEffect code a0 a1 s) := by
  unfold commandEffect
  split_ifs
  · exact openCase_frame s
  · exact closeCase_frame s
  · exact transferCase_frame a0 a1 s
  · exact setFrequencyCase_frame a0 a1 s
  · exact .complete (.refl s) _

/-! ### What only OPEN and CLOSE write -/

theorem commandEffect_of_not_lifecycle {code : Word} (notOpen : code ≠ 1) (notClose : code ≠ 2) (a0 a1 : Word)
    (s : State) :
    (commandEffect code a0 a1 s).x = s.x ∧ (commandEffect code a0 a1 s).lock = s.lock ∧
      (commandEffect code a0 a1 s).phase = s.phase ∧ (commandEffect code a0 a1 s).sig = s.sig := by
  rw [commandEffect, if_neg notOpen, if_neg notClose]
  split_ifs
  · unfold transferCase
    split_ifs <;> simp [State.complete_eq]
  · unfold setFrequencyCase
    split_ifs <;> simp [State.complete_eq]
  · simp [State.complete_eq]

theorem closeCase_sig (s : State) : (closeCase s).sig = s.sig := by
  unfold closeCase
  split_ifs <;> simp [State.complete_eq, State.takeLock_eq]

theorem commandEffect_sig {code : Word} (notOpen : code ≠ 1) (a0 a1 : Word) (s : State) :
    (commandEffect code a0 a1 s).sig = s.sig := by
  by_cases close : code = 2
  · rw [commandEffect, if_neg notOpen, if_pos close, closeCase_sig]
  · obtain ⟨-, -, -, sig⟩ := commandEffect_of_not_lifecycle notOpen close a0 a1 s
    exact sig

/-! ### A command runs the effect of its code -/

theorem commandEffect_of_unrecognised {code : Word} (unrecognised : isCommandCode code = false) (a0 a1 : Word)
    (s : State) :
    commandEffect code a0 a1 s = s.complete s.port .einval := by
  obtain ⟨ne1, ne2, ne3, ne4⟩ := isCommandCode_eq_false.mp unrecognised
  rw [commandEffect, if_neg ne1, if_neg ne2, if_neg ne3, if_neg ne4]

theorem eq_of_dispatching {code a0 a1 : Word} {k : State → State} (h : dispatching s code a0 a1 k = .next t) :
    t = k (s.log (.dispatch s.port code)) := by
  obtain ⟨-, -, effect⟩ := dispatching_eq_next.mp h
  exact effect

/-- A command that answers a next state has the effect of the code it is decoded from (R101 to R104, R201). -/
theorem exec_command_eq_next {i : Instr} (command : i.row = none) (h : exec i s = .next t) :
    ∃ code a0 a1, i = decodeCommand code a0 a1 ∧ t = commandEffect code a0 a1 (s.log (.dispatch s.port code)) := by
  cases i with
  | cmdOpen a0 a1 => exact ⟨1, a0, a1, rfl, eq_of_dispatching h⟩
  | cmdClose a0 a1 => exact ⟨2, a0, a1, rfl, eq_of_dispatching h⟩
  | cmdExecuteTransfer messages count => exact ⟨3, messages, count, rfl, eq_of_dispatching h⟩
  | cmdSetFrequency hz a1 => exact ⟨4, hz, a1, rfl, eq_of_dispatching h⟩
  | cmdUnrecognised code a0 a1 =>
    cases unrecognised : isCommandCode code with
    | true => simp [exec, execCmdUnrecognised, unrecognised, guarded_eq_next] at h
    | false =>
      rw [exec_cmdUnrecognised unrecognised] at h
      refine ⟨code, a0, a1, ?_, ?_⟩
      · exact (decodeCommand_eq_unrecognised.mpr (isCommandCode_eq_false.mp unrecognised)).symm
      · exact (eq_of_dispatching h).trans (commandEffect_of_unrecognised unrecognised a0 a1 _).symm
  | _ => cases command

end Sys2Proof.Machine

namespace Sys2Proof.Proofs

open Sys2Proof.Machine

/-- Settles O6, one case of the dispatch for each clause. -/
theorem openDispatchCases : Obligations.OpenDispatchCases := by
  intro s a0 a1 live shown
  refine ⟨fun detached => ?_, fun attached opened => ?_, fun attached closed refused => ?_,
    exec_cmdOpen_accepted live shown⟩
  · rw [exec_cmdOpen live shown, openCase_of_detached (s := s.log _) detached]
    exact congrArg _ (s.complete_log _ _ _)
  · rw [exec_cmdOpen live shown, openCase_of_opened (s := s.log _) attached opened]
    exact congrArg _ (s.complete_log _ _ _)
  · rw [exec_cmdOpen live shown, openCase_of_no_memory (s := s.log _) attached closed refused]
    exact congrArg _ (s.complete_log _ _ _)

/-- Settles O7, one case of the dispatch for each clause; whoever waits is not on the dispatcher's port. -/
theorem closeDispatchCases : Obligations.CloseDispatchCases := by
  intro s a0 a1 live shown
  have waiting := anyWaiting_iff_other shown
  refine ⟨fun closed => ?_, fun opened busy => ?_, fun opened free nobody => ?_⟩
  · rw [exec_cmdClose live shown, closeCase_of_closed (s := s.log _) closed]
    exact congrArg _ (s.complete_log _ _ _)
  · rw [← waiting] at busy
    rw [exec_cmdClose live shown, closeCase_of_busy (s := s.log _) opened busy]
    exact congrArg _ (State.raiseFault_log (State.halted_eq_none.mp live).1 _ _)
  · have alone : anyWaiting s = false := by
      rw [← Bool.not_eq_true, waiting]
      rintro ⟨q, c, b0, b1, other, waits⟩
      exact nobody q c b0 b1 other waits
    exact exec_cmdClose_accepted live shown opened free alone

/-- Settles O10: the dispatch of a code that is none of the four is one completion. -/
theorem unrecognisedCommandCompletesEinval : Obligations.UnrecognisedCommandCompletesEinval := by
  intro s code a0 a1 live shown ne1 ne2 ne3 ne4
  rw [exec_cmdUnrecognised (isCommandCode_eq_false.mpr ⟨ne1, ne2, ne3, ne4⟩)]
  exact dispatching_eq_next.mpr ⟨live, shown, (s.complete_log _ _ _).symm⟩

/-- Settles O19: in CL_DISABLE the phase tests who waits, in SFR_DISABLE it goes on to the restore. -/
theorem cr1DisableOfRejectionAndClose : Obligations.Cr1DisableOfRejectionAndClose := by
  intro s live
  have unmarked : s.fault = none := (State.halted_eq_none.mp live).1
  refine ⟨fun phase => ?_, fun phase alone => ?_, fun phase waiting => ?_⟩
  · refine exec_uopCr1Disable live phase rfl (if_neg (by simp [phase])) ?_
    rw [phaseEffect, phase]
    rfl
  · exact exec_uopCr1Disable live phase rfl (if_pos phase)
      (phaseEffect_clDisable_alone 0 phase (anyWaiting_eq_false.mpr alone))
  · exact exec_uopCr1Disable live phase rfl (if_pos phase)
      (phaseEffect_clDisable_waiting 0 phase unmarked (anyWaiting_iff.mpr waiting))

/-- Settles O21: each of the two phases runs the micro-operation of its row. -/
theorem openPhasesProgramAndEnable : Obligations.OpenPhasesProgramAndEnable := by
  intro s live
  exact ⟨fun phase => exec_of_phase (v := 0) live phase rfl rfl (phaseEffect_opWrCr2 0 phase),
    fun phase => exec_of_phase (v := 0) live phase rfl (if_pos (enableWord_and_pe _ _)) (phaseEffect_opEnable 0 phase)⟩

/-- Settles O36: the bytes of the port's words decode as the words do, and so the step runs `i`. -/
theorem stepRunsTheDecodedCommand : Obligations.StepRunsTheDecodedCommand := by
  intro s r code a0 a1 i live turn shown decodes
  rw [decode_toBytes] at decodes
  obtain rfl : decodeCommand code a0 a1 = i := Except.ok.inj decodes
  calc step s = move s.turn.move s.takeTurn := guarded_of_live live _
    _ = dispatchPort r s.takeTurn := by rw [turn]; rfl
    _ = exec (decodeCommand code a0 a1) (s.takeTurn.withPort r) := by rw [dispatchPort, State.slot_takeTurn, shown]

/-- Settles O41: the command has the effect of its code, which stays in the frame, and only codes 1 and 2 write more than
the dispatcher's port. -/
theorem commandsLeaveTheRestAlone : Obligations.CommandsLeaveTheRestAlone := by
  intro i s t command h
  obtain ⟨code, a0, a1, rfl, rfl⟩ := exec_command_eq_next command h
  obtain ⟨cmem, lent, cfg, evtEn, errEn, irqMask, errSr1, evtLine, errLine, allocOk, port, turns, tick, slots, regs⟩ :=
    commandEffect_frame code a0 a1 (s.log (.dispatch s.port code))
  refine ⟨fun a => congrArg (Memory.read · a) cmem, lent, cfg, evtEn, errEn, irqMask, errSr1, evtLine, errLine, allocOk,
    port, turns, tick, slots, regs, fun notLifecycle => ?_, fun notOpen => ?_⟩
  · obtain ⟨notOpen, notClose⟩ := notLifecycle a0 a1
    have ne1 : code ≠ 1 := by
      rintro rfl
      exact notOpen rfl
    have ne2 : code ≠ 2 := by
      rintro rfl
      exact notClose rfl
    obtain ⟨x, lock, phase, -⟩ := commandEffect_of_not_lifecycle ne1 ne2 a0 a1 (s.log (.dispatch s.port code))
    exact ⟨x, lock, phase⟩
  · have ne1 : code ≠ 1 := by
      rintro rfl
      exact notOpen a0 a1 rfl
    exact ⟨(commandEffect_sameGates ne1 a0 a1 _).dev, commandEffect_sig ne1 a0 a1 _⟩

end Sys2Proof.Proofs
end

section
/-! SUPPORT. OPEN and CLOSE as runs of the sequencer (42_device_surface.md R203 to R211): settles both from dispatch to
completion. -/

namespace Sys2Proof.Machine

variable {s : State}

/-! ### The set-frequency routine (R141 to R145) -/

theorem phaseEffect_sfRdCr1 (v : Word) (phase : s.phase = .sfRdCr1) :
    phaseEffect v s = { s with
      x := { s.x with old := v }, phase := .sfDisable, history := s.history ++ [.regRead 0x00 v] } := by
  rw [phaseEffect, phase]
  rfl

/-- On the standard ceiling the grade is the standard one, and the divisors are not 0 (R133 to R135, R206). -/
theorem phaseEffect_sfDisable_stdMaxHz (v : Word) (live : s.halted = none) (phase : s.phase = .sfDisable)
    (ceiling : s.x.hz = s.cfg.stdMaxHz) :
    phaseEffect v s = { s with
      x := { s.x with
        fast := false
        div := s.cfg.inputClockHz / (s.cfg.stdMaxHz * 3)
        tr := s.cfg.inputClockHz / s.cfg.stdTimeConst + 1 }
      phase := .sfWrCcr
      history := s.history ++ [.regWrite 0x00 (s.x.old &&& ~~~s.cfg.cr1Pe)] } := by
  have hp : paramsOk s.cfg = true := State.paramsOk_of_live live
  have nonzero : s.x.hz ≠ 0 := ceiling ▸ Safety.stdMaxHz_ne_zero hp
  have inRange : s.x.hz.toNat ≤ s.cfg.fastMaxHz.toNat :=
    ceiling ▸ overCeiling_eq_false.mp (Safety.not_overCeiling_stdMaxHz hp)
  rw [phaseEffect, phase]
  simp [sfDisable, computeTiming_eq hp nonzero inRange, ceiling, State.log, State.setX, State.goto, regOffset, disableWord]

theorem phaseEffect_sfWrCcr (v : Word) (live : s.halted = none) (phase : s.phase = .sfWrCcr) :
    phaseEffect v s = { s with
      phase := .sfWrTrise
      history := s.history ++ [.regWrite 0x1C ((if s.x.fast = true then s.cfg.ccrFs else 0) ||| s.x.div)] } := by
  rw [phaseEffect, phase, ← ccrWord_eq (State.paramsOk_of_live live)]
  rfl

theorem phaseEffect_sfWrTrise (v : Word) (phase : s.phase = .sfWrTrise) :
    phaseEffect v s = { s with phase := .sfRestore, history := s.history ++ [.regWrite 0x20 s.x.tr] } := by
  rw [phaseEffect, phase]
  rfl

theorem phaseEffect_sfRestore_opening (v : Word) (phase : s.phase = .sfRestore) (ret : s.x.ret = .opening) :
    phaseEffect v s = { s with phase := .opRdCr1, history := s.history ++ [.regWrite 0x00 s.x.old] } := by
  rw [phaseEffect, phase, sfRestore, ret]
  rfl

/-- The routine called by OPEN, from its first access to its return with the lock (R141 to R145, R206). -/
theorem runs_routine_of_open {v : Word} (live : s.halted = none) (phase : s.phase = .sfRdCr1)
    (ceiling : s.x.hz = s.cfg.stdMaxHz) (ret : s.x.ret = .opening) :
    Runs s [v, 0, 0, 0, 0] { s with
      x := { s.x with
        old := v
        fast := false
        div := s.cfg.inputClockHz / (s.cfg.stdMaxHz * 3)
        tr := s.cfg.inputClockHz / s.cfg.stdTimeConst + 1 }
      phase := .opRdCr1
      history := s.history ++
        [.regRead 0x00 v, .regWrite 0x00 (v &&& ~~~s.cfg.cr1Pe),
          .regWrite 0x1C (s.cfg.inputClockHz / (s.cfg.stdMaxHz * 3)),
          .regWrite 0x20 (s.cfg.inputClockHz / s.cfg.stdTimeConst + 1),
          .regWrite 0x00 v] } := by
  have run := Runs.cons live (phaseEffect_sfRdCr1 v phase) <|
    .cons live (phaseEffect_sfDisable_stdMaxHz 0 live rfl ceiling) <|
    .cons live (phaseEffect_sfWrCcr 0 live rfl) <|
    .cons live (phaseEffect_sfWrTrise 0 rfl) <|
    .cons live (phaseEffect_sfRestore_opening 0 rfl ret) (.nil _)
  simpa using run

/-! ### OPEN and CLOSE from their first phase to their last (R205 to R211) -/

/-- OPEN after its dispatch: eight accesses, then the release and OK. -/
theorem runs_open {c1 c2 : Word} (live : s.halted = none) (phase : s.phase = .opWrCr2) :
    Runs s [0, c1, 0, 0, 0, 0, c2, 0] { s with
      x := { s.x with
        hz := s.cfg.stdMaxHz
        ret := .opening
        old := c1
        fast := false
        div := s.cfg.inputClockHz / (s.cfg.stdMaxHz * 3)
        tr := s.cfg.inputClockHz / s.cfg.stdTimeConst + 1
        tmp := c2 }
      lock := .free
      phase := .idle
      req := s.req.set s.x.owner (.done .ok)
      history := s.history ++
        [.regWrite 0x04 s.cfg.cr2InitWord,
          .regRead 0x00 c1, .regWrite 0x00 (c1 &&& ~~~s.cfg.cr1Pe),
          .regWrite 0x1C (s.cfg.inputClockHz / (s.cfg.stdMaxHz * 3)),
          .regWrite 0x20 (s.cfg.inputClockHz / s.cfg.stdTimeConst + 1),
          .regWrite 0x00 c1,
          .regRead 0x00 c2, .regWrite 0x00 (c2 ||| s.cfg.cr1Pe),
          .lockRel s.x.owner, .complete s.x.owner .ok] } := by
  have run := Runs.cons live (phaseEffect_opWrCr2 0 phase) <|
    .append (runs_routine_of_open (v := c1) live rfl rfl rfl) <|
    .cons live (phaseEffect_opRdCr1 c2 rfl) <|
    .cons live (phaseEffect_opEnable 0 rfl) (.nil _)
  simpa only [List.append_assoc, List.cons_append, List.nil_append] using run

/-- CLOSE after its dispatch, no command having come to wait: two accesses, then the release and OK. -/
theorem runs_close {c : Word} (live : s.halted = none) (phase : s.phase = .clRdCr1) (alone : anyWaiting s = false) :
    Runs s [c, 0] { s with
      x := { s.x with tmp := c }
      dev := .closed
      lock := .free
      phase := .idle
      req := s.req.set s.x.owner (.done .ok)
      history := s.history ++
        [.regRead 0x00 c, .regWrite 0x00 (c &&& ~~~s.cfg.cr1Pe), .lockRel s.x.owner, .complete s.x.owner .ok] } := by
  have run := Runs.cons live (phaseEffect_clRdCr1 c phase) <|
    .cons live (phaseEffect_clDisable_alone 0 rfl alone) (.nil _)
  simpa only [List.append_assoc, List.cons_append, List.nil_append] using run

end Sys2Proof.Machine

namespace Sys2Proof.Proofs

open Sys2Proof.Machine

/-- Settles O11: the accepted OPEN starts at its first phase, and the phases run to the last. -/
theorem openRunsToCompletion : Obligations.OpenRunsToCompletion := by
  intro s a0 a1 c1 c2 live shown attached closed granted
  have port : s.port < s.req.length := State.lt_of_slot (by simp [shown])
  refine ⟨_, _, exec_cmdOpen_accepted live shown attached closed granted,
    Runs.runSequencer (runs_open (by exact live) rfl), ?_, rfl, rfl, rfl, rfl, ?_⟩
  · simp [State.slot, State.atTurn, port]
  · simp [State.atTurn]

/-- Settles O12: nobody waits before the dispatch, and so nobody does in CL_DISABLE. -/
theorem closeRunsToCompletion : Obligations.CloseRunsToCompletion := by
  intro s a0 a1 c live shown opened free nobody
  have port : s.port < s.req.length := State.lt_of_slot (by simp [shown])
  have alone : anyWaiting s = false := anyWaiting_eq_false.mpr nobody
  refine ⟨_, _, exec_cmdClose_accepted live shown opened free alone,
    Runs.runSequencer (runs_close (by exact live) rfl (anyWaiting_of_req_set alone rfl rfl)), ?_, rfl, rfl, rfl, ?_⟩
  · simp [State.slot, State.atTurn, port]
  · simp [State.atTurn]

end Sys2Proof.Proofs
end

section
/-! SUPPORT. How a move ends: without an exception, in a fault, or with EINVAL on a port (60_exceptions.md R230, R231, R245);
settles that a fault is logged and sticky, and the causes of EINVAL. -/

namespace Sys2Proof.Machine

variable {s t u : State}

/-! ### Moves that raise nothing -/

/-- `t` carries on from `s` with no fault marked and no command answered EINVAL. -/
structure Plain (s t : State) : Prop where
  fault : t.fault = s.fault
  grows : ∃ es, t.history = s.history ++ es ∧ ∀ r, Event.complete r .einval ∉ es

namespace Plain

theorem refl (s : State) : Plain s s := ⟨rfl, [], by simp, by simp⟩

theorem log (h : Plain s t) {e : Event} (other : ∀ r, e ≠ .complete r .einval) : Plain s (t.log e) := by
  obtain ⟨fault, es, grown, silent⟩ := h
  exact ⟨fault, es ++ [e], by simp [grown], fun r => by simp [silent r, (other r).symm]⟩

theorem trans (h : Plain s t) (h' : Plain t u) : Plain s u := by
  obtain ⟨fault, es, grown, silent⟩ := h
  obtain ⟨fault', es', grown', silent'⟩ := h'
  exact ⟨fault'.trans fault, es ++ es', by simp [grown, grown'], fun r => by simp [silent r, silent' r]⟩

/-- Neither the fault nor the history tells the two states apart. -/
theorem of_eq (h : Plain s t) (fault : u.fault = t.fault) (history : u.history = t.history) : Plain s u :=
  ⟨fault.trans h.fault, by simpa [history] using h.grows⟩

/-- The events added to the history answer no port with EINVAL. -/
theorem not_answered (h : Plain s t) {es : List Event} (grown : t.history = s.history ++ es) (r : Nat) :
    Event.complete r .einval ∉ es := by
  obtain ⟨-, es', grown', silent⟩ := h
  rw [List.append_cancel_left (grown.symm.trans grown')]
  exact silent r

theorem complete (h : Plain s t) {st : Status} (other : st ≠ .einval) (r : Nat) : Plain s (t.complete r st) :=
  (h.of_eq (u := t.setSlot r (.done st)) rfl rfl).log (by simp [other])

theorem finish (h : Plain s t) {st : Status} (other : st ≠ .einval) : Plain s (t.finish st) :=
  ((h.log (e := .lockRel t.x.owner) nofun).of_eq (u := t.release t.x.owner) rfl rfl).complete other t.x.owner

end Plain

/-! ### How a move ends -/

/-- The ways a move ends; `cause r` is why it answers port `r` with EINVAL. -/
inductive Ends (cause : Nat → Prop) (s : State) : State → Prop where
  | plain {t : State} (h : Plain s t) : Ends cause s t
  | fault {t : State} (h : Plain s t) (f : Fault) : Ends cause s (t.raiseFault f)
  | einval {t : State} (h : Plain s t) {r : Nat} (why : cause r) : Ends cause s (t.complete r .einval)

namespace Ends

variable {cause cause' : Nat → Prop}

theorem refl (s : State) : Ends cause s s := .plain (.refl s)

theorem mono (h : Ends cause s t) (imp : ∀ r, cause r → cause' r) : Ends cause' s t := by
  cases h with
  | plain h => exact .plain h
  | fault h f => exact .fault h f
  | einval h why => exact .einval h (imp _ why)

theorem of_plain (h : Ends cause t u) (start : Plain s t) : Ends cause s u := by
  cases h with
  | plain h => exact .plain (start.trans h)
  | fault h f => exact .fault (start.trans h) f
  | einval h why => exact .einval (start.trans h) why

/-- A fault that the move marks is its last event (R245). -/
theorem fault_logged (h : Ends cause s t) (unmarked : s.fault = none) {f : Fault} (marked : t.fault = some f) :
    ∃ es, t.history = s.history ++ es ++ [.fault f] := by
  cases h with
  | plain h => simp [h.fault, unmarked] at marked
  | @fault t h g =>
    obtain ⟨es, grown, -⟩ := h.grows
    rw [State.raiseFault_of_none (h.fault.trans unmarked)] at marked ⊢
    obtain rfl : g = f := Option.some.inj marked
    exact ⟨es, by simp [grown]⟩
  | @einval t h r why => simp [State.complete_eq, h.fault, unmarked] at marked

/-- A move answers EINVAL on no port but one that has a cause. -/
theorem einval_cause (h : Ends cause s t) {es : List Event} (grown : t.history = s.history ++ es) {r : Nat}
    (answered : Event.complete r .einval ∈ es) : cause r := by
  cases h with
  | plain h => exact absurd answered (h.not_answered grown r)
  | @fault t h f =>
    cases marked : t.fault with
    | some g =>
      rw [State.raiseFault_of_some marked] at grown
      exact absurd answered (h.not_answered grown r)
    | none =>
      have logged : Plain s (t.log (.fault f)) := h.log nofun
      rw [State.raiseFault_of_none marked] at grown
      exact absurd answered (logged.not_answered grown r)
  | @einval t h q why =>
    obtain ⟨before, start, silent⟩ := h.grows
    have new : before ++ [.complete q .einval] = es := by
      apply List.append_cancel_left (as := s.history)
      rw [← grown, State.complete_eq, State.log_history, State.setSlot_history, start, List.append_assoc]
    have own : r = q := by simpa [← new, silent r] using answered
    rwa [own]

end Ends

/-! ### The agents that answer no port -/

section Agents

variable {cause : Nat → Prop}

theorem submit_ends (r : Nat) (code a0 a1 : Word) (regions : List (Nat × Nat)) (s : State) :
    Ends cause s (submit r code a0 a1 regions s) := by
  unfold submit
  split_ifs
  · exact .plain (.of_eq (.refl s) rfl rfl)
  · exact .refl s

theorem collect_ends (r : Nat) (s : State) : Ends cause s (collect r s) := by
  unfold collect
  split
  · exact .plain (.of_eq (.refl s) rfl rfl)
  · exact .refl s

theorem startWaiting_ends (r : Nat) (code a0 a1 : Word) (s : State) :
    Ends cause s (startWaiting r code a0 a1 s) := by
  have taken : Plain s (s.takeLock r) := .of_eq (.log (.refl s) (e := .lockAcq r) nofun) rfl rfl
  unfold startWaiting
  split_ifs
  · exact .plain (taken.of_eq rfl rfl)
  · exact .plain (taken.of_eq rfl rfl)
  · exact .refl s

theorem acquire_ends (r : Nat) (s : State) : Ends cause s (acquire r s) := by
  unfold acquire
  split
  · split_ifs
    · exact startWaiting_ends r _ _ _ s
    · exact .refl s
  · exact .refl s

theorem evtHandler_ends (s : State) : Ends cause s (evtHandler s) := by
  unfold evtHandler
  split_ifs
  · exact .fault (.refl s) _
  · have disabled : Plain s (s.log (.lineDisable .evt)) := .log (.refl s) nofun
    exact .plain (.of_eq (disabled.log (e := .post .evt) nofun) rfl rfl)
  · exact .refl s

theorem errHandler_ends (s : State) : Ends cause s (errHandler s) := by
  unfold errHandler
  split_ifs
  · exact .fault (.refl s) _
  · exact .plain (.of_eq (.log (.refl s) (e := .post .err) nofun) rfl rfl)
  · exact .refl s

end Agents

/-! ### The commands -/

/-- The causes of EINVAL at dispatch (R231, but for (b) under REJECT_TOUCHES_CR1). -/
def Rejects (s : State) (code a0 : Word) : Prop :=
  (code = 1 ∧ s.cfg.cfgAttached = false) ∨
  (code = 4 ∧ a0.toNat > s.cfg.fastMaxHz.toNat ∧ s.cfg.rejectTouchesCr1 = false) ∨
  (code ≠ 1 ∧ code ≠ 2 ∧ code ≠ 3 ∧ code ≠ 4) ∨
  (code = 1 ∧ s.dev = .opened) ∨
  (code = 2 ∧ s.dev = .closed) ∨
  ((code = 3 ∨ code = 4) ∧ s.dev = .closed)

/-- The dispatcher's port is answered EINVAL for a cause of the list. -/
def DispatchCause (s : State) (code a0 : Word) (r : Nat) : Prop := r = s.port ∧ Rejects s code a0

theorem openCase_ends (a0 : Word) (s : State) : Ends (DispatchCause s 1 a0) s (openCase s) := by
  unfold openCase
  split_ifs with detached opened noAlloc
  · exact .einval (.refl s) ⟨rfl, .inl ⟨rfl, detached⟩⟩
  · exact .einval (.refl s) ⟨rfl, by simp [Rejects, opened]⟩
  · exact .plain (.complete (.refl s) (by decide) _)
  · exact .plain (.of_eq (.log (.refl s) (e := .lockAcq s.port) nofun) rfl rfl)

theorem closeCase_ends (a0 : Word) (s : State) : Ends (DispatchCause s 2 a0) s (closeCase s) := by
  unfold closeCase
  split_ifs with closed busy
  · exact .einval (.refl s) ⟨rfl, by simp [Rejects, closed]⟩
  · exact .fault (.refl s) _
  · exact .plain (.of_eq (.log (.refl s) (e := .lockAcq s.port) nofun) rfl rfl)

theorem transferCase_ends (messages count : Word) (s : State) :
    Ends (DispatchCause s 3 messages) s (transferCase messages count s) := by
  unfold transferCase
  split_ifs with closed empty
  · exact .einval (.refl s) ⟨rfl, by simp [Rejects, closed]⟩
  · exact .plain (.complete (.refl s) (by decide) _)
  · exact .plain (.of_eq (.refl s) rfl rfl)

theorem setFrequencyCase_ends (hz a1 : Word) (s : State) :
    Ends (DispatchCause s 4 hz) s (setFrequencyCase hz a1 s) := by
  unfold setFrequencyCase
  split_ifs with closed above touches zero
  · exact .einval (.refl s) ⟨rfl, by simp [Rejects, closed]⟩
  · exact .plain (.of_eq (.refl s) rfl rfl)
  · exact .einval (.refl s) ⟨rfl, .inr (.inl ⟨rfl, overCeiling_iff.mp above, by simpa using touches⟩)⟩
  · exact .fault (.refl s) _
  · exact .plain (.of_eq (.refl s) rfl rfl)

theorem commandEffect_ends (code a0 a1 : Word) (s : State) :
    Ends (DispatchCause s code a0) s (commandEffect code a0 a1 s) := by
  unfold commandEffect
  split_ifs with opening close transfer setFrequency
  · exact opening ▸ openCase_ends a0 s
  · exact close ▸ closeCase_ends a0 s
  · exact transfer ▸ transferCase_ends a0 a1 s
  · exact setFrequency ▸ setFrequencyCase_ends a0 a1 s
  · exact .einval (.refl s) ⟨rfl, .inr (.inr (.inl ⟨opening, close, transfer, setFrequency⟩))⟩

/-! ### The phases -/

section Phases

variable {cause : Nat → Prop}

theorem sfRestore_ends (s : State) : Ends cause s (sfRestore s) := by
  have written : Plain s (s.regWrite .cr1 s.x.old) := .log (.refl s) nofun
  unfold sfRestore
  split
  · exact .plain (written.finish (by decide))
  · exact .plain (written.of_eq rfl rfl)

theorem clDisable_ends (s : State) : Ends cause s (clDisable s) := by
  have written : Plain s (s.regWrite .cr1 (disableWord s.cfg s.x.tmp)) := .log (.refl s) nofun
  unfold clDisable
  dsimp only
  split_ifs
  · exact .fault written _
  · have closed : Plain s ((s.regWrite .cr1 (disableWord s.cfg s.x.tmp)).setDev .closed) := written.of_eq rfl rfl
    exact .plain (closed.finish (by decide))

theorem txFetch_ends (s : State) : Ends cause s (txFetch s) := by
  have read {t : State} (h : Plain s t) (a w : Word) : Plain s (t.log (.cMemRead a 4 w)) := h.log nofun
  unfold txFetch
  split_ifs
  · exact .fault (.refl s) _
  dsimp only
  split
  · exact .fault (.refl s) _
  split
  · exact .fault (read (.refl s) _ _) _
  split
  · exact .fault (read (read (.refl s) _ _) _ _) _
  · exact .plain (.of_eq (read (read (read (.refl s) _ _) _ _) _ _) rfl rfl)

theorem checkedStatus_ends (v : Word) (good : Phase) (s : State) : Ends cause s (checkedStatus v good s) := by
  have read : Plain s (s.regRead .sr1 v) := .log (.refl s) nofun
  unfold checkedStatus
  dsimp only
  split_ifs <;> exact .plain (read.of_eq rfl rfl)

theorem txData_ends (s : State) : Ends cause s (txData s) := by
  have masked : Plain s (s.log .maskSet) := .log (.refl s) nofun
  unfold txData
  dsimp only
  split_ifs
  · exact .plain (.of_eq (.refl s) rfl rfl)
  · exact .plain (.of_eq (.refl s) rfl rfl)
  · exact .plain (.of_eq (masked.log (e := .maskRestore s.irqMask) nofun) rfl rfl)
  · exact .plain (masked.of_eq rfl rfl)

theorem txRdByte_ends (v : Word) (s : State) : Ends cause s (txRdByte v s) := by
  have read : Plain s (s.regRead .dr v) := .log (.refl s) nofun
  have stored : Plain s ((s.regRead .dr v).cmemStore (byteAddress s.x) (v.extractLsb' 0 8)) :=
    .of_eq (read.log (e := .cMemWrite _ _ _) nofun) rfl rfl
  unfold txRdByte
  dsimp only
  split_ifs
  · exact .plain (stored.of_eq rfl rfl)
  · exact .plain (stored.of_eq rfl rfl)
  · exact .fault read _

theorem txWrPoll_ends (v : Word) (s : State) : Ends cause s (txWrPoll v s) := by
  have read : Plain s (s.regRead .sr1 v) := .log (.refl s) nofun
  unfold txWrPoll
  dsimp only
  split_ifs
  · exact .plain (read.of_eq rfl rfl)
  · exact .plain (.of_eq (read.log (e := .maskRestore s.x.irqSaved) nofun) rfl rfl)
  · exact .plain (read.of_eq rfl rfl)

theorem txWrByte_ends (s : State) : Ends cause s (txWrByte s) := by
  unfold txWrByte
  split
  · exact .fault (.refl s) _
  next b _ =>
    have read : Plain s (s.log (.cMemRead (byteAddress s.x) 1 (dataWord b))) := .log (.refl s) nofun
    have sent : Plain s ((s.log (.cMemRead (byteAddress s.x) 1 (dataWord b))).regWrite .dr (dataWord b)) :=
      read.log nofun
    dsimp only
    split_ifs
    · exact .plain (sent.of_eq rfl rfl)
    · exact .plain (.of_eq (sent.log (e := .maskRestore s.x.irqSaved) nofun) rfl rfl)

theorem txNext_ends (s : State) : Ends cause s (txNext s) := by
  unfold txNext
  split_ifs <;> exact .plain (.of_eq (.refl s) rfl rfl)

end Phases

/-- `finish` with any status: the release, then the answer. -/
theorem finish_ends {cause : Nat → Prop} {t : State} (h : Plain s t) (st : Status)
    (why : st = .einval → cause t.x.owner) : Ends cause s (t.finish st) := by
  by_cases rejected : st = .einval
  · subst rejected
    exact .einval (.of_eq (u := t.release t.x.owner) (h.log (e := .lockRel t.x.owner) nofun) rfl rfl) (why rfl)
  · exact .plain (h.finish rejected)

/-- The owner of the running command is answered EINVAL in the last phase of a rejection that touches CR1 (R138), or as the
error of a transfer, which the invariant excludes. -/
def PhaseCause (s : State) (r : Nat) : Prop :=
  r = s.x.owner ∧ (s.phase = .sfrRestore ∨ s.phase = .txDone ∧ s.x.err = .einval)

/-- The phases not named here log one access. -/
theorem phaseEffect_ends (v : Word) (s : State) : Ends (PhaseCause s) s (phaseEffect v s) := by
  unfold phaseEffect
  cases phase : s.phase with
  | idle => exact .refl s
  | sfRestore => exact sfRestore_ends s
  | clDisable => exact clDisable_ends s
  | txFetch => exact txFetch_ends s
  | txStartSt => exact checkedStatus_ends v .txAddr s
  | txAddrSt => exact checkedStatus_ends v .txAddrClr s
  | txData => exact txData_ends s
  | txRdByte => exact txRdByte_ends v s
  | txWrPoll => exact txWrPoll_ends v s
  | txWrByte => exact txWrByte_ends s
  | txNext => exact txNext_ends s
  | sfrRestore =>
    have written : Plain s (s.regWrite .cr1 s.x.old) := .log (.refl s) nofun
    exact finish_ends written _ fun _ => ⟨rfl, .inl phase⟩
  | opEnable =>
    have written : Plain s (s.regWrite .cr1 (enableWord s.cfg s.x.tmp)) := .log (.refl s) nofun
    exact .plain (written.finish (by decide))
  | txDone => exact finish_ends (.refl s) _ fun error => ⟨rfl, .inr ⟨phase, error⟩⟩
  | _ => exact .plain ⟨rfl, _, rfl, by simp⟩

/-! ### The moves -/

/-- Why a move answers port `r` with EINVAL. -/
def EinvalCause (s : State) (r : Nat) : Move → Prop
  | .dispatch q => r = q ∧ ∃ code a0 a1, s.slot q = .submitted code a0 a1 ∧ Rejects s code a0
  | .sequencer _ => PhaseCause s r
  | .submit _ _ _ _ _ | .collect _ | .callerWrite _ _ | .acquire _ | .evtHandler | .errHandler => False

theorem dispatchEffect_ends (r : Nat) (s : State) :
    Ends (fun q => EinvalCause s q (.dispatch r)) s (dispatchEffect r s) := by
  unfold dispatchEffect
  split
  next code a0 a1 shown =>
    have started : Plain s ((s.withPort r).log (.dispatch r code)) :=
      .log (.of_eq (.refl s) (u := s.withPort r) rfl rfl) nofun
    refine ((commandEffect_ends code a0 a1 _).of_plain started).mono fun q why => ?_
    obtain ⟨port, rejects⟩ := why
    exact ⟨port, code, a0, a1, shown, rejects⟩
  next => exact .refl s

theorem moveEffect_ends (m : Move) (s : State) : Ends (fun r => EinvalCause s r m) s (moveEffect m s) := by
  cases m with
  | submit r code a0 a1 regions => exact submit_ends r code a0 a1 regions s
  | collect r => exact collect_ends r s
  | callerWrite a b => exact .plain (.of_eq (.refl s) rfl rfl)
  | dispatch r => exact dispatchEffect_ends r s
  | acquire r => exact acquire_ends r s
  | sequencer v => exact phaseEffect_ends v s
  | evtHandler => exact evtHandler_ends s
  | errHandler => exact errHandler_ends s

/-! ### A stopped machine -/

theorem State.halted_of_fault {f : Fault} (marked : s.fault = some f) : s.halted = some f := by
  simp [State.halted, marked]

/-- A stopped machine runs no instruction (R245, R246). -/
theorem exec_of_halted {f : Fault} (stopped : s.halted = some f) (i : Instr) : exec i s = .fault f := by
  have refuses (k : Result) : guarded s k = .fault f := by simp [guarded, stopped]
  cases i with
  | cmdUnrecognised code a0 a1 =>
    rw [exec, execCmdUnrecognised]
    split_ifs <;> exact refuses _
  | _ => exact refuses _

end Sys2Proof.Machine

namespace Sys2Proof.Proofs

open Sys2Proof.Machine Sys2Proof.Safety

/-- Settles O39: the fault that a live machine's move marks is its last event, and a marked state is stopped. -/
theorem faultIsStickyAndLogged : Obligations.FaultIsStickyAndLogged := by
  refine ⟨fun s t f hs marked => ?_, fun s f marked => ?_⟩
  · obtain ⟨live, rfl⟩ := step_eq_next.mp hs
    have unmarked : s.fault = none := (State.halted_eq_none.mp live).1
    exact ⟨(moveEffect_ends s.turn.move s.takeTurn).fault_logged unmarked marked,
      step_of_halted (State.halted_of_fault marked)⟩
  · have stopped := State.halted_of_fault marked
    exact ⟨step_of_halted stopped, State.raiseFault_of_some marked, exec_of_halted stopped⟩

/-- Settles O53: the dispatcher answers EINVAL for a cause of the list and makes no access; the sequencer answers it at the end
of a rejection, for a transfer's error is never EINVAL. -/
theorem einvalHasOnlyItsCauses : Obligations.EinvalHasOnlyItsCauses := by
  intro s t r es inv hs grown answered
  obtain ⟨-, rfl⟩ := step_eq_next.mp hs
  have why := (moveEffect_ends s.turn.move s.takeTurn).einval_cause grown answered
  cases turn : s.turn.move with
  | dispatch q =>
    rw [turn] at why
    obtain ⟨rfl, code, a0, a1, shown, rejects⟩ := why
    have silent (e : Event) (access : e.isAccess = true) : e ∉ es := fun mem => by
      obtain ⟨v, sequencer, -⟩ := step_access_issued hs grown mem access
      simp [turn] at sequencer
    exact .inl ⟨code, a0, a1, rfl, shown, fun off v => ⟨silent _ rfl, silent _ rfl⟩, rejects⟩
  | sequencer v =>
    rw [turn] at why
    have facts := inv.phaseInv
    obtain ⟨rfl, (phase : s.phase = .sfrRestore) | ⟨(phase : s.phase = .txDone), (error : s.x.err = .einval)⟩⟩ := why
    · rw [phase] at facts
      obtain ⟨op, above, touches⟩ := facts
      have busy : s.lock ≠ .free := inv.busy (by simp [phase])
      exact .inr ⟨phase, (inv.lock.owner busy).1, op, overCeiling_iff.mp above, touches, v, rfl⟩
    · simp [phase, PhaseInv, error] at facts
  | _ => simp [turn, EinvalCause] at why

end Sys2Proof.Proofs
end

section
/-! SUPPORT. Who writes `x[ERR]`: settles that EBUS and ETIMEDOUT have only their causes (60_exceptions.md R233, R234). -/

namespace Sys2Proof.Machine

variable {s : State}

/-! ### The moves that leave `x[ERR]` -/

theorem dispatchEffect_err (r : Nat) (s : State) : (dispatchEffect r s).x.err = s.x.err := by
  unfold dispatchEffect
  split
  next code a0 a1 _ =>
    have regs := (commandEffect_frame code a0 a1 ((s.withPort r).log (.dispatch r code))).regs
    rw [regs]
    rfl
  next => rfl

/-- Of the moves other than the sequencer's only an acquisition writes it. -/
theorem moveEffect_err {m : Move} (acquire : ∀ r, m ≠ .acquire r) (sequencer : ∀ v, m ≠ .sequencer v) (s : State) :
    (moveEffect m s).x.err = s.x.err := by
  cases m with
  | submit r code a0 a1 regions => exact congrArg Regs.err ((Safety.Inert.submit r code a0 a1 regions).regs s)
  | collect r => exact congrArg Regs.err ((Safety.Inert.collect r).regs s)
  | callerWrite a b => rfl
  | dispatch r => exact dispatchEffect_err r s
  | acquire r => exact absurd rfl (acquire r)
  | sequencer v => exact absurd rfl (sequencer v)
  | evtHandler => exact congrArg Regs.err (Safety.Inert.evtHandler.regs s)
  | errHandler => exact congrArg Regs.err (Safety.Inert.errHandler.regs s)

/-- The start of a transfer clears it (R162). -/
theorem acquire_err (r : Nat) (s : State) :
    (acquire r s).x.err = s.x.err ∨ (acquire r s).x.err = .ok ∧ (acquire r s).phase = .txFetch := by
  unfold acquire startWaiting
  split
  · split_ifs
    · exact .inr ⟨rfl, rfl⟩
    · exact .inl rfl
    · exact .inl rfl
    · exact .inl rfl
  · exact .inl rfl

/-! ### The phases -/

theorem txFetch_err (s : State) : (txFetch s).x.err = s.x.err := by
  unfold txFetch
  split_ifs
  · simp
  dsimp only
  split
  · simp
  split
  · simp
  split
  · simp
  · rfl

theorem txData_err (s : State) : (txData s).x.err = s.x.err := by
  unfold txData
  dsimp only
  split_ifs <;> rfl

theorem txNext_err (s : State) : (txNext s).x.err = s.x.err := by
  unfold txNext
  split_ifs <;> rfl

theorem firstError_changed {old new : Status} (changed : firstError old new ≠ old) :
    old = .ok ∧ firstError old new = new := by
  unfold firstError at changed ⊢
  split_ifs at changed ⊢ with first
  · exact ⟨first, rfl⟩
  · exact absurd rfl changed

/-- A status read that tests the error mask writes it only for an error bit, and latches the word (R166, R168, R236). -/
theorem checkedStatus_err {v : Word} {good : Phase} (changed : (checkedStatus v good s).x.err ≠ s.x.err) :
    (checkedStatus v good s).x.err = .ebus ∧ s.x.err = .ok ∧ v &&& errMask s.cfg ≠ 0 ∧
      (checkedStatus v good s).errSr1 = v ∧ (checkedStatus v good s).phase = .txStop := by
  by_cases clean : v &&& errMask s.cfg = 0
  · rw [checkedStatus_of_clean good clean] at changed
    exact absurd rfl changed
  · rw [checkedStatus_of_error good clean] at changed ⊢
    obtain ⟨first, error⟩ := firstError_changed changed
    exact ⟨error, first, clean, rfl, rfl⟩

/-- A poll writes it only when the bound is reached without transmit-empty (R172, R173, R237). -/
theorem txWrPoll_err {v : Word} (changed : (txWrPoll v s).x.err ≠ s.x.err) :
    (txWrPoll v s).x.err = .etimedout ∧ s.x.err = .ok ∧ (txWrPoll v s).phase = .txStop ∧ v &&& s.cfg.sr1Txe = 0 ∧
      ∃ n, s.cfg.txePollLimit = some n ∧ n ≤ s.x.polls + 1 := by
  by_cases full : v &&& s.cfg.sr1Txe = 0
  · by_cases reached : ∃ n, s.cfg.txePollLimit = some n ∧ n ≤ s.x.polls + 1
    · rw [txWrPoll_of_timeout full reached] at changed ⊢
      obtain ⟨first, error⟩ := firstError_changed changed
      exact ⟨error, first, rfl, full, reached⟩
    · rw [txWrPoll_of_wait full (by simpa using reached)] at changed
      exact absurd rfl changed
  · rw [txWrPoll_of_txe full] at changed
    exact absurd rfl changed

/-- A phase of any row but STATUS leaves it. -/
theorem RegsKept.err {x y : Regs} {row : MicroRow} (h : RegsKept x y row) (other : row ≠ .status) : y.err = x.err := by
  cases row with
  | status => exact absurd rfl other
  | _ => exact (congrArg Regs.err (show y = _ from h)).trans rfl

theorem phase_of_status {ph : Phase} (issues : phaseRow ph = some .status) :
    ph = .txStartSt ∨ ph = .txAddrSt ∨ ph = .txWrPoll := by
  cases ph with
  | txStartSt => exact .inl rfl
  | txAddrSt => exact .inr (.inl rfl)
  | txWrPoll => exact .inr (.inr rfl)
  | _ => cases issues

/-- Only the three status reads write it. -/
theorem phaseEffect_err (v : Word) (start : s.phase ≠ .txStartSt) (address : s.phase ≠ .txAddrSt)
    (poll : s.phase ≠ .txWrPoll) : (phaseEffect v s).x.err = s.x.err := by
  cases issues : phaseRow s.phase with
  | some row =>
    refine (phaseEffect_regsKept v s row issues).err ?_
    rintro rfl
    obtain phase | phase | phase := phase_of_status issues
    · exact start phase
    · exact address phase
    · exact poll phase
  | none =>
    unfold phaseEffect
    cases phase : s.phase with
    | idle => rfl
    | txFetch => exact txFetch_err s
    | txData => exact txData_err s
    | txNext => exact txNext_err s
    | txDone => rfl
    | _ => simp [phase, phaseRow] at issues

/-- The two raises, each from its own status reads (R233, R234). -/
theorem phaseEffect_err_changed {v : Word} (changed : (phaseEffect v s).x.err ≠ s.x.err) :
    ((phaseEffect v s).x.err = .ebus ∧ s.x.err = .ok ∧ (s.phase = .txStartSt ∨ s.phase = .txAddrSt) ∧
      v &&& errMask s.cfg ≠ 0 ∧ (phaseEffect v s).errSr1 = v ∧ (phaseEffect v s).phase = .txStop) ∨
    ((phaseEffect v s).x.err = .etimedout ∧ s.x.err = .ok ∧ s.phase = .txWrPoll ∧ (phaseEffect v s).phase = .txStop ∧
      v &&& s.cfg.sr1Txe = 0 ∧ ∃ n, s.cfg.txePollLimit = some n ∧ n ≤ s.x.polls + 1) := by
  by_cases start : s.phase = .txStartSt
  · rw [phaseEffect_txStartSt v start] at changed ⊢
    obtain ⟨error, first, raised⟩ := checkedStatus_err changed
    exact .inl ⟨error, first, .inl start, raised⟩
  by_cases address : s.phase = .txAddrSt
  · rw [phaseEffect_txAddrSt v address] at changed ⊢
    obtain ⟨error, first, raised⟩ := checkedStatus_err changed
    exact .inl ⟨error, first, .inr address, raised⟩
  by_cases poll : s.phase = .txWrPoll
  · rw [phaseEffect_txWrPoll v poll] at changed ⊢
    obtain ⟨error, first, raised⟩ := txWrPoll_err changed
    exact .inr ⟨error, first, poll, raised⟩
  exact absurd (phaseEffect_err v start address poll) changed

end Sys2Proof.Machine

namespace Sys2Proof.Proofs

open Sys2Proof.Machine

/-- Settles O54: of the moves and phases that write `x[ERR]`, an acquisition clears it and each status read raises its own
error. -/
theorem transferErrorsHaveOnlyTheirCauses : Obligations.TransferErrorsHaveOnlyTheirCauses := by
  intro s t hs changed
  obtain ⟨-, rfl⟩ := step_eq_next.mp hs
  cases turn : s.turn.move with
  | acquire r =>
    rw [turn] at changed
    obtain same | ⟨cleared, fetch⟩ := acquire_err r s.takeTurn
    · exact absurd same changed
    · exact .inl ⟨cleared, fetch, r, rfl⟩
  | sequencer v =>
    rw [turn] at changed
    obtain ⟨error, first, phase, bit, latch, stop⟩ | ⟨error, first, phase, stop, full, n, limit, reached⟩ :=
      phaseEffect_err_changed (s := s.takeTurn) changed
    · exact .inr (.inl ⟨error, first, phase, v, rfl, bit, latch, stop⟩)
    · exact .inr (.inr ⟨error, first, phase, stop, v, n, rfl, full, limit, reached⟩)
  | _ => exact absurd (moveEffect_err (by simp [turn]) (by simp [turn]) s.takeTurn) changed

end Sys2Proof.Proofs
end

section
/-! SUPPORT. The parameter constraints written out; settles that a broken one gives no run (60_exceptions.md R246). -/

namespace Sys2Proof.Machine

/-- The masks of a list overlap nowhere exactly when every two of them are apart. -/
theorem disjointMasks_iff {ms : List Word} : disjointMasks ms = true ↔ ms.Pairwise (fun m n => m &&& n = 0) := by
  induction ms with
  | nil => simp [disjointMasks]
  | cons m ms ih => simp [disjointMasks, ih]

variable {p : Params}

/-- The numeric constraints (R8, R9, R11). -/
theorem numbersOk_iff :
    numbersOk p = true ↔
      p.base.toNat % 4 = 0 ∧ p.evtIrq ≠ p.errIrq ∧ p.stdMaxHz ≠ 0 ∧ p.stdMaxHz.toNat ≤ p.fastMaxHz.toNat ∧
        p.fastMaxHz.toNat * 3 < 2 ^ 32 ∧ p.stdTimeConst ≠ 0 ∧ p.fastTimeConst ≠ 0 ∧ p.nreq ≠ 0 ∧
        p.txePollLimit ≠ some 0 ∧ p.useDuty = false := by
  simp only [numbersOk, Bool.and_eq_true, beq_iff_eq, bne_iff_ne, decide_eq_true_eq, Bool.not_eq_true',
    and_three_eq_zero_iff, BitVec.ule, and_assoc, ne_eq]

/-- The masks of each register are apart (R10). -/
theorem pairwise_of_masksOk (ok : masksOk p = true) :
    (cr1Masks p).Pairwise (fun m n => m &&& n = 0) ∧ (p.cr2Freq :: cr2Bits p).Pairwise (fun m n => m &&& n = 0) ∧
      (sr1Masks p).Pairwise (fun m n => m &&& n = 0) ∧ (p.ccrField :: ccrBits p).Pairwise (fun m n => m &&& n = 0) := by
  simp only [masksOk, Bool.and_eq_true, disjointMasks_iff] at ok
  tauto

theorem State.halted_of_broken {s : State} (unmarked : s.fault = none) (broken : paramsOk s.cfg = false) :
    s.halted = some .badParameters := by
  simp [State.halted, unmarked, broken]

end Sys2Proof.Machine

namespace Sys2Proof.Proofs

open Sys2Proof.Machine

/-- Settles O40: parameters that pass the check meet every constraint of the list, so broken ones stop the machine. -/
theorem brokenParametersHaveNoRun : Obligations.BrokenParametersHaveNoRun := by
  intro s unmarked constraint
  refine step_of_halted (State.halted_of_broken unmarked (Bool.eq_false_iff.mpr fun ok => ?_))
  obtain ⟨numbers, masks⟩ := Bool.and_eq_true_iff.mp ok
  obtain ⟨base, irq, std, ceiling, product, stdConst, fastConst, ports, limit, noDuty⟩ := numbersOk_iff.mp numbers
  obtain ⟨cr1, cr2, sr1, ccr⟩ := pairwise_of_masksOk masks
  rcases constraint with h | h | h | h | h | h | h | h | h | h | h | h | h | h
  · exact h base
  · exact irq h
  · exact std h
  · exact Nat.not_lt.mpr ceiling h
  · exact Nat.not_lt.mpr h product
  · exact stdConst h
  · exact fastConst h
  · exact ports h
  · exact limit h
  · simp [noDuty] at h
  · exact h cr1
  · exact h cr2
  · exact h sr1
  · exact h ccr

end Sys2Proof.Proofs
end

section
/-! SUPPORT. The interrupt handlers, enabled and not; settles what they signal (60_exceptions.md R240 to R242). -/

namespace Sys2Proof.Machine

variable {s : State}

theorem evtHandler_of_closed (line : s.evtLine = true) (enabled : s.evtEn = true) (unmasked : s.irqMask = false)
    (closed : s.dev = .closed) : evtHandler s = s.raiseFault .irqWhileClosed := by
  rw [evtHandler, if_pos ⟨line, enabled, unmasked⟩, if_pos closed]

theorem evtHandler_of_opened (line : s.evtLine = true) (enabled : s.evtEn = true) (unmasked : s.irqMask = false)
    (opened : s.dev = .opened) :
    evtHandler s = { s with
      evtEn := false, sig := s.post.sig, history := s.history ++ [.lineDisable .evt, .post .evt] } := by
  rw [evtHandler, if_pos ⟨line, enabled, unmasked⟩, if_neg (by simp [opened])]
  have events : s.history ++ [.lineDisable .evt] ++ [.post .evt] = s.history ++ [.lineDisable .evt, .post .evt] :=
    List.append_assoc ..
  rw [← events]
  rfl

theorem evtHandler_of_not_enabled (h : s.evtLine = false ∨ s.evtEn = false ∨ s.irqMask = true) : evtHandler s = s := by
  refine if_neg ?_
  rintro ⟨line, enabled, unmasked⟩
  simp [line, enabled, unmasked] at h

theorem errHandler_of_closed (line : s.errLine = true) (enabled : s.errEn = true) (unmasked : s.irqMask = false)
    (closed : s.dev = .closed) : errHandler s = s.raiseFault .irqWhileClosed := by
  rw [errHandler, if_pos ⟨line, enabled, unmasked⟩, if_pos closed]

theorem errHandler_of_opened (line : s.errLine = true) (enabled : s.errEn = true) (unmasked : s.irqMask = false)
    (opened : s.dev = .opened) :
    errHandler s = { s with sig := s.post.sig, history := s.history ++ [.post .err] } := by
  rw [errHandler, if_pos ⟨line, enabled, unmasked⟩, if_neg (by simp [opened])]
  rfl

theorem errHandler_of_not_enabled (h : s.errLine = false ∨ s.errEn = false ∨ s.irqMask = true) : errHandler s = s := by
  refine if_neg ?_
  rintro ⟨line, enabled, unmasked⟩
  simp [line, enabled, unmasked] at h

end Sys2Proof.Machine

namespace Sys2Proof.Proofs

open Sys2Proof.Machine

/-- Settles O34, one case of a handler for each clause; the new signal is that of a post. -/
theorem handlersOnlySignal : Obligations.HandlersOnlySignal := by
  intro s unmarked
  exact ⟨fun line enabled unmasked opened =>
      ⟨s.post.sig, s.post_sig_toNat, evtHandler_of_opened line enabled unmasked opened⟩,
    fun line enabled unmasked opened =>
      ⟨s.post.sig, s.post_sig_toNat, errHandler_of_opened line enabled unmasked opened⟩,
    fun line enabled unmasked closed =>
      (evtHandler_of_closed line enabled unmasked closed).trans (State.raiseFault_of_none unmarked _),
    fun line enabled unmasked closed =>
      (errHandler_of_closed line enabled unmasked closed).trans (State.raiseFault_of_none unmarked _),
    evtHandler_of_not_enabled, errHandler_of_not_enabled⟩

end Sys2Proof.Proofs
end

section
/-! SUPPORT. The registry of instances; settles that they do not interact (60_exceptions.md R256, 93_implementation_defined.md
U27). -/

namespace Sys2Proof.Machine

variable {s t : State}

/-! ### Register ranges -/

theorem regOffset_le (r : Reg) : (regOffset r).toNat ≤ 32 := by
  cases r <;> decide

/-- Instances whose ranges are apart share no register address (R31, R60). -/
theorem regAddress_ne_of_rangesApart {p q : Params} (apart : rangesApart p q = true) (r r' : Reg) :
    regAddress p r ≠ regAddress q r' := by
  intro same
  obtain ⟨above, below⟩ : 36 ≤ (q.base - p.base).toNat ∧ 36 ≤ (p.base - q.base).toNat := by simpa [rangesApart] using apart
  have offset := regOffset_le r
  have offset' := regOffset_le r'
  have address := congrArg BitVec.toNat same
  simp only [regAddress, BitVec.toNat_add, BitVec.toNat_setWidth] at address
  rw [BitVec.toNat_sub] at above below
  omega

/-! ### A registry after a step -/

/-- The condition on a registry speaks of parameters only. -/
theorem Registry.apart_iff_cfg {ms : Registry} :
    Registry.apart ms = true ↔ List.Pairwise (fun p q => rangesApart p q = true) (ms.map State.cfg) := by
  rw [Registry.apart_iff, List.pairwise_map]

theorem Registry.map_cfg_set {ms : Registry} {k : Nat} (own : ms[k]? = some s) (cfg : t.cfg = s.cfg) :
    (ms.set k t).map State.cfg = ms.map State.cfg := by
  obtain ⟨present, rfl⟩ := List.getElem?_eq_some_iff.mp own
  rw [List.map_set, cfg, ← List.getElem_map State.cfg (h := by simpa using present), List.set_getElem_self]

end Sys2Proof.Machine

namespace Sys2Proof.Proofs

open Sys2Proof.Machine

/-- Settles O60: the step puts the mover's own next state in its place, with the same parameters, so the ranges stay apart; a
shared address means ranges that are not. -/
theorem instancesDoNotInteract : Obligations.InstancesDoNotInteract := by
  refine ⟨fun ms ns k hs => ?_, fun ms k s t apart own hs => ?_, fun ms i j k s t r r' order first second same => ?_⟩
  · obtain ⟨apart, ⟨missing, rfl⟩ | ⟨s, t, own, hst, rfl⟩⟩ := Registry.step_eq_next.mp hs
    · exact ⟨rfl, fun _ _ => rfl, apart, fun s own => by simp [missing] at own⟩
    · have cfg : t.cfg = s.cfg := (step_continues hst).cfg
      have still : Registry.apart (ms.set k t) = true := by
        rwa [Registry.apart_iff_cfg, Registry.map_cfg_set own cfg, ← Registry.apart_iff_cfg]
      refine ⟨List.length_set, fun j other => List.getElem?_set_ne other.symm, still, fun s' own' => ?_⟩
      obtain rfl : s = s' := Option.some.inj (own.symm.trans own')
      have present : k < ms.length := (List.getElem?_eq_some_iff.mp own).1
      exact ⟨t, hst, List.getElem?_set_self present⟩
  · exact Registry.step_eq_next.mpr ⟨apart, .inr ⟨s, t, own, hs, rfl⟩⟩
  · refine if_neg fun apart => ?_
    obtain ⟨hi, rfl⟩ := List.getElem?_eq_some_iff.mp first
    obtain ⟨hj, rfl⟩ := List.getElem?_eq_some_iff.mp second
    have ranges := List.pairwise_iff_getElem.mp (Registry.apart_iff.mp apart) i j hi hj order
    exact regAddress_ne_of_rangesApart ranges r r' same

end Sys2Proof.Proofs
end

section
/-! SUPPORT. The state at reset; settles that it meets the invariant and has the values of the reset table
(70_reset_and_hazards.md R270). -/

namespace Sys2Proof.Machine

variable (p : Params)

/-- Each of the `NREQ` ports is `Idle`, and a port that does not exist reads so too (R29). -/
@[simp] theorem State.slot_resetWith (r : Nat) : (State.resetWith p).slot r = .idle :=
  List.getD_eq_getElem?_getD.trans (List.getElem?_getD_replicate_default_eq ..)

theorem State.getElem?_req_resetWith {r : Nat} (present : r < p.nreq) : (State.resetWith p).req[r]? = some .idle :=
  List.getElem?_replicate_of_lt present

theorem State.length_req_resetWith : (State.resetWith p).req.length = p.nreq := List.length_replicate

end Sys2Proof.Machine

namespace Sys2Proof.Safety

open Sys2Proof.Machine

variable (p : Params) (x : Regs)

/-- Nobody holds the lock and no port holds a command. -/
theorem lockInv_resetWith : LockInv ((State.resetWith p).setX x) where
  idleIffFree := iff_of_true rfl rfl
  holder _ held := nomatch held
  runningHolds r running := by simp at running
  closedIdle _ := anyWaiting_eq_false.mpr (by simp)
  ports := State.length_req_resetWith p

/-- What the invariant says of the ports is of commands and answers, and there are none; the history and memory are empty. -/
theorem shell_resetWith : Shell ((State.resetWith p).setX x) where
  lock := lockInv_resetWith p x
  wait r code a0 a1 waiting := by simp at waiting
  status _ r := by simp
  trace := { lock := rfl, mask := rfl }
  memory := rfl

end Sys2Proof.Safety

namespace Sys2Proof.Proofs

open Sys2Proof.Machine Sys2Proof.Safety

/-- Settles O44: no port holds a command, and of the working registers the invariant asks nothing in IDLE. -/
theorem invariantHoldsAtReset : Obligations.InvariantHoldsAtReset := fun p x =>
  inv_iff.mpr ⟨shell_resetWith p x, trivial, rfl⟩

/-- Settles O45: each of the `NREQ` ports is one of equal copies, and every other field is written out. -/
theorem resetValues : Obligations.ResetValues := fun p =>
  ⟨rfl, rfl, rfl, rfl, rfl, rfl, rfl, rfl, fun _ => State.getElem?_req_resetWith p, State.length_req_resetWith p, rfl, rfl⟩

end Sys2Proof.Proofs
end
